-- ==== Sys2Proof/Word.lean ====
section
/-! DEFINITION. The words of the block: bits and bytes (R10), the events of the line trace (R41), a Reading (R30, R106),
a decoded temperature (R250, R251), and the encoded form of an operation, one shape for each format of the opcode table
(R90, R116). -/

namespace Sys2Proof

/-- A bit, and a level of the line: `true` is 1, high; `false` is 0, low (R10). -/
abbrev Bit := Bool

/-- A byte, bits 7 down to 0 (R10). -/
abbrev Byte := BitVec 8

/-- A raw temperature, 16 bits (R102). -/
abbrev Raw := BitVec 16

/-- One event of the line trace (R41), durations in microseconds. -/
inductive Event
  /-- `Low(n)`: the block held the line low for `n` µs. -/
  | low (n : Nat)
  /-- `Rel(n)`: the block left the line released for `n` µs. -/
  | rel (n : Nat)
  /-- `Smp(b)`: the block sampled the line and read `b`. -/
  | smp (b : Bit)
  deriving DecidableEq, Repr

/-- A Reading as 17 bits: the valid flag and the raw temperature (R30, R106). -/
structure Reading where
  valid : Bit
  raw : Raw
  deriving DecidableEq, Repr

/-- A decoded temperature: `invalid`, or a whole number of sixteenths of a degree (R250, R251; log 18). -/
inductive Temperature
  | invalid
  | sixteenths (n : Int)
  deriving DecidableEq, Repr

/-- The two modes of the Bus Line (R24, R293). -/
inductive LineMode
  | input
  | output
  deriving DecidableEq, Repr

/-- A call of the platform interface (R117, R293), the one encoding a micro-operation has. -/
inductive PlatformCall
  | setLineMode (m : LineMode)
  | writeLine (v : Bit)
  | readLine
  | delayMicroseconds (n : Nat)
  | monotonicTick
  deriving DecidableEq, Repr

/-- A token of a run-length waveform (R116): `L<n>`, `Z<n>`, `S`, and `[Z<n>]`, present under a condition. -/
inductive Tok
  | L (n : Nat)
  | Z (n : Nat)
  | S
  | optZ (n : Nat)
  deriving DecidableEq, Repr

/-- A one-bit input port of the host side (R36, R108). -/
inductive Port
  | start
  | rst
  deriving DecidableEq, Repr

/-- A function call as R118 spells it, with its operands; format FUNC has no bit encoding (R116; log 3). -/
inductive FuncCall
  | crcStep (args : List Byte)
  | computeCrc (m : List Byte)
  /-- The Reading's 17 bits of R106: bit 16 the valid flag, bits 15 to 0 the raw temperature (log 3). -/
  | decode (r : BitVec 17)
  | latest
  deriving DecidableEq, Repr

/-- The seven formats of the opcode table (R116). -/
inductive Format
  | micro
  | wave
  | byte8
  | cmd8
  | func
  | host1
  | seq4
  deriving DecidableEq, Repr

/-- An encoded operation: one shape for each format of the opcode table (R90, R116; log 3). -/
inductive Code
  /-- MICRO: platform calls, in order (R117). -/
  | calls (cs : List PlatformCall)
  /-- WAVE: the waveform of one line symbol, in time order (R91 to R94). -/
  | wave (ts : List Tok)
  /-- BYTE8: the waveform of eight slots back to back, in time order (R96). -/
  | frame (ts : List Tok)
  /-- CMD8: a byte in a command position (R97). -/
  | cmd8 (b : Byte)
  /-- FUNC: a function call (R118). -/
  | func (f : FuncCall)
  /-- HOST1: the port reads 1 (R108). A port that reads 0 asks for nothing and is no code. -/
  | host1 (p : Port)
  /-- SEQ4: the code of a sequencer state as seen on `status` (R107). -/
  | seq4 (c : BitVec 4)
  deriving DecidableEq, Repr

end Sys2Proof
end

