-- ==== Sys2Proof/Config.lean ====
section
/-! DEFINITION. What is fixed for this hardware (the parameters of R6, durations in microseconds), the parameters R6 leaves
OPEN, and the free values: opaque constants without a body, so that a proof holds whatever they are. -/

namespace Sys2Proof.Config

/-- Reset: the time the block holds the line low (R6). -/
def tRSTL : Nat := 500
/-- Reset: from the release to the presence sample (R6). -/
def tPDS : Nat := 65
/-- Reset: the wait after a successful presence sample (R6). -/
def tRSTREC : Nat := 435
/-- Write-1: low time (R6). -/
def tW1L : Nat := 5
/-- Write-1: released time after the low (R6). -/
def tW1H : Nat := 60
/-- Write-0: low time (R6). -/
def tW0L : Nat := 60
/-- Write-0: released time after the low (R6). -/
def tW0H : Nat := 5
/-- Read: low time (R6). -/
def tRDL : Nat := 3
/-- Read: from the release to the sample (R6). -/
def tRDS : Nat := 10
/-- Read: the total slot (R6). -/
def tSLOT : Nat := 65
/-- Read: the wait after the sample, `T_SLOT - T_RDL - T_RDS` (R6). -/
def tRDREM : Nat := tSLOT - tRDL - tRDS
/-- The broadcast-select command byte (R6, R97). -/
def cmdSelectAll : Byte := 0xCC#8
/-- The convert-temperature command byte (R6, R97). -/
def cmdConvert : Byte := 0x44#8
/-- The read-scratchpad command byte (R6, R97). -/
def cmdReadSp : Byte := 0xBE#8

/-- The two levels of description of R9, and above them the model's own coarser one (logs 5, 6). -/
inductive Level
  /-- MODEL: a step runs a whole operation of the opcode table, a row of the sequencer among them (log 5). -/
  | operation
  /-- R9 (a): a step is one micro-operation, and durations stand in the trace. -/
  | symbol
  /-- R9 (b): a step is one microsecond, or a change of phase that takes no time (R143; log 19). -/
  | tick
  deriving DecidableEq, Repr

/-- The parameters that R6 leaves OPEN and R9's choice of level: data of the machine that no step changes (R7; logs 6, 8). -/
structure Params where
  /-- `T_POLL`, µs between two polls. -/
  tPoll : Nat
  /-- `POLL_LIMIT`: `none` is INF, the source's behaviour; `some n` needs `n ≥ 1`. -/
  pollLimit : Option Nat
  level : Level
  /-- `CLK_PER_US`, clock cycles per microsecond, `≥ 1`; "no rule depends on it". -/
  clkPerUs : Nat
  deriving DecidableEq, Repr

/-- R6's constraints: `POLL_LIMIT` is INF or at least 1, and `CLK_PER_US` is at least 1. -/
def Params.wf (p : Params) : Bool :=
  (match p.pollLimit with
    | none => true
    | some n => decide (1 ≤ n)) && decide (1 ≤ p.clkPerUs)

/-- FREE VALUE. The oracle `Env.sample : Trace -> Bit` (R66, U14), a new one after each RESET (R312; logs 7, 11). -/
opaque envSample (resets : Nat) (trace : List Event) : Bit

/-- FREE VALUE. Byte `k` of `SP` after the RESET with this number (R40, U11; log 10). -/
opaque freeSp (resets k : Nat) : Byte

/-- FREE VALUE. `T_POLL` of the machine of `State.reset` (R6, D6; log 8). -/
opaque tPoll : Nat

/-- FREE VALUE. By how much `CLK_PER_US` of the machine of `State.reset` exceeds 1 (R6, D1; log 8). -/
opaque clkPerUsAboveOne : Nat

/-- `CLK_PER_US` of the machine of `State.reset`: any number that is at least 1 (R6). -/
def clkPerUs : Nat := clkPerUsAboveOne + 1

end Sys2Proof.Config
end

