-- ==== Sys2Proof/Syntax.lean ====
section
/-! DEFINITION. The operations of the block: one constructor for each row of spec/opcode_table.json (R116, R118). -/

namespace Sys2Proof

/-- The 32 operations. -/
inductive Instr
  /-- `DRIVE_LOW` (R130). -/
  | driveLow
  /-- `RELEASE` (R131). -/
  | release
  /-- `DELAY n` (R132), `n` a natural number of µs. -/
  | delay (n : Nat)
  /-- `SAMPLE` (R133). -/
  | sample
  /-- `RESET_DETECT` (R135). -/
  | resetDetect
  /-- `W1`, `WRITE_BIT 1` (R136). -/
  | w1
  /-- `W0`, `WRITE_BIT 0` (R136). -/
  | w0
  /-- `READ_BIT` (R137). -/
  | readBit
  /-- `TX_BYTE b` (R160). -/
  | txByte (b : Byte)
  /-- `RX_BYTE` (R161). -/
  | rxByte
  /-- `SELECT_ALL`: transmit `0xCC` (R119, R204). -/
  | selectAll
  /-- `CONVERT`: transmit `0x44` (R119, R205). -/
  | convert
  /-- `READ_SP`: transmit `0xBE` (R119, R209). -/
  | readSp
  /-- `CRC_STEP c, b` (R183). -/
  | crcStep (c b : Byte)
  /-- `COMPUTE_CRC m` (R184). -/
  | computeCrc (m : List Byte)
  /-- `DECODE r` (R250). -/
  | decode (r : Reading)
  /-- `LATEST` (R254). -/
  | latest
  /-- `ACQUIRE` (R201). -/
  | acquire
  /-- `RESET` (R311). -/
  | reset
  /-- `SEQ.Idle` (R202). -/
  | seqIdle
  /-- `SEQ.Reset1` (R203). -/
  | seqReset1
  /-- `SEQ.SelectAll1` (R204). -/
  | seqSelectAll1
  /-- `SEQ.StartConversion` (R205). -/
  | seqStartConversion
  /-- `SEQ.ConversionWait` (R206). -/
  | seqConversionWait
  /-- `SEQ.Reset2` (R207). -/
  | seqReset2
  /-- `SEQ.SelectAll2` (R208). -/
  | seqSelectAll2
  /-- `SEQ.ReadScratchpad` (R209). -/
  | seqReadScratchpad
  /-- `SEQ.Validate` (R210). -/
  | seqValidate
  /-- `SEQ.Committed` (R211). -/
  | seqCommitted
  /-- `SEQ.Discarded` (R212). -/
  | seqDiscarded
  /-- `SEQ.Aborted` (R213). -/
  | seqAborted
  /-- `SEQ.TimedOut` (R214). -/
  | seqTimedOut
  deriving DecidableEq, Repr

end Sys2Proof
end

