-- ==== Sys2Proof/WellFormed.lean ====
section
/-! DEFINITION. Which terms are operations: every operand's width is in its type, so one check is left, that the operand of
`DECODE` is a Reading (R30: "When `RS_VALID` = 0, `RS_RAW` = `0x0000`"). -/

namespace Sys2Proof

/-- A pair of bits that is a Reading: invalid means a raw value of zero (R30, R106). -/
def Reading.wf (r : Reading) : Bool := r.valid || r.raw == 0#16

/-- The well-formed operations. -/
def Instr.wf : Instr → Bool
  | .decode r => r.wf
  | .driveLow | .release | .delay _ | .sample => true
  | .resetDetect | .w1 | .w0 | .readBit => true
  | .txByte _ | .rxByte | .selectAll | .convert | .readSp => true
  | .crcStep _ _ | .computeCrc _ | .latest => true
  | .acquire | .reset => true
  | .seqIdle | .seqReset1 | .seqSelectAll1 | .seqStartConversion | .seqConversionWait => true
  | .seqReset2 | .seqSelectAll2 | .seqReadScratchpad | .seqValidate => true
  | .seqCommitted | .seqDiscarded | .seqAborted | .seqTimedOut => true

end Sys2Proof
end

