-- ==== Sys2Proof/Decode.lean ====
section
/-! DEFINITION. The decoder, from an encoded operation to an `Instr` or a rejection by name, and after it the encoder, both from
the encoding tables of `30_encoding.md`. -/

namespace Sys2Proof

/-- Why a code is no operation's. -/
inductive DecodeError
  /-- The platform calls are no micro-operation's (R117, R134; log 24). -/
  | unknownCalls
  /-- The waveform is no line symbol's (R91 to R94, R114). -/
  | notASymbol
  /-- The waveform is not eight write slots and not eight read slots (R96). -/
  | notAByteFrame
  /-- The byte is none of the three command bytes (R97, R110). -/
  | unknownCommandByte
  /-- The function got another number of operands (R118). -/
  | wrongOperands
  /-- The 17 bits are no Reading: invalid with a raw value (R106). -/
  | notAReading
  /-- Codes 13 to 15 of `SEQ` (R107, R113). -/
  | unusedSeqCode
  deriving DecidableEq, Repr

/-! ## Bits of a byte -/

/-- The bits of a byte, bit 0 first, the order of the line (R67). -/
def bitsOf (b : Byte) : List Bit := (List.range 8).map b.getLsbD

/-- The number whose bit `k` is the `k`-th entry: `sum over k of sample_k * 2^k` (R103). -/
def natOfBits : List Bit → Nat
  | [] => 0
  | b :: bs => b.toNat + 2 * natOfBits bs

/-- The byte assembled from bits, the first at bit 0 (R103). -/
def byteOfBits (bs : List Bit) : Byte := BitVec.ofNat 8 (natOfBits bs)

/-! ## Waveforms -/

/-- The slots that make up a byte frame (R92 to R94). -/
inductive Slot
  | write (v : Bit)
  | read
  deriving DecidableEq, Repr

/-- The waveform of a slot (R92, R93, R94). -/
def Slot.wave : Slot → List Tok
  | .write true => [.L Config.tW1L, .Z Config.tW1H]
  | .write false => [.L Config.tW0L, .Z Config.tW0H]
  | .read => [.L Config.tRDL, .Z Config.tRDS, .S, .Z Config.tRDREM]

/-- The waveform of the reset and presence frame (R91). -/
def resetWave : List Tok := [.L Config.tRSTL, .Z Config.tPDS, .S, .optZ Config.tRSTREC]

/-- The first slot of a waveform and what follows it. -/
def takeSlot : List Tok → Option (Slot × List Tok)
  | .L l :: .Z a :: .S :: .Z b :: rest =>
    if l = Config.tRDL ∧ a = Config.tRDS ∧ b = Config.tRDREM then some (.read, rest) else none
  | .L l :: .Z a :: rest =>
    if l = Config.tW1L ∧ a = Config.tW1H then some (.write true, rest)
    else if l = Config.tW0L ∧ a = Config.tW0H then some (.write false, rest)
    else none
  | _ => none

/-- A waveform as exactly `n` slots (R96: no start, stop or parity symbol). -/
def takeSlots : Nat → List Tok → Option (List Slot)
  | 0, [] => some []
  | 0, _ :: _ => none
  | n + 1, ts =>
    match takeSlot ts with
    | some (k, rest) => (takeSlots n rest).map (k :: ·)
    | none => none

/-- The values of slots that are all write slots. -/
def writtenBits : List Slot → Option (List Bit)
  | [] => some []
  | .write v :: ks => (writtenBits ks).map (v :: ·)
  | .read :: _ => none

/-! ## The decoder -/

/-- MICRO (R117). -/
def decodeCalls : List PlatformCall → Except DecodeError Instr
  | [.setLineMode .output, .writeLine false] => .ok .driveLow
  | [.setLineMode .input] => .ok .release
  | [.delayMicroseconds n] => .ok (.delay n)
  | [.readLine] => .ok .sample
  | _ => .error .unknownCalls

/-- WAVE (R91 to R94). -/
def decodeWave (ts : List Tok) : Except DecodeError Instr :=
  if ts = resetWave then .ok .resetDetect
  else match takeSlots 1 ts with
    | some [.write true] => .ok .w1
    | some [.write false] => .ok .w0
    | some [.read] => .ok .readBit
    | _ => .error .notASymbol

/-- BYTE8 (R96): eight write slots carry a byte, eight read slots receive one. -/
def decodeFrame (ts : List Tok) : Except DecodeError Instr :=
  match takeSlots 8 ts with
  | none => .error .notAByteFrame
  | some ks =>
    if ks = List.replicate 8 .read then .ok .rxByte
    else match writtenBits ks with
      | some bs => .ok (.txByte (byteOfBits bs))
      | none => .error .notAByteFrame

/-- CMD8 (R97): each command is matched on all eight bits. -/
def decodeCmd (b : Byte) : Except DecodeError Instr :=
  if b = Config.cmdSelectAll then .ok .selectAll
  else if b = Config.cmdConvert then .ok .convert
  else if b = Config.cmdReadSp then .ok .readSp
  else .error .unknownCommandByte

/-- FUNC (R118; log 3). -/
def decodeFunc : FuncCall → Except DecodeError Instr
  | .crcStep [c, b] => .ok (.crcStep c b)
  | .crcStep _ => .error .wrongOperands
  | .computeCrc m => .ok (.computeCrc m)
  | .decode w =>
    let r : Reading := ⟨w.getLsbD 16, w.extractLsb' 0 16⟩
    if r.wf then .ok (.decode r) else .error .notAReading
  | .latest => .ok .latest

/-- HOST1 (R108). -/
def decodePort : Port → Except DecodeError Instr
  | .start => .ok .acquire
  | .rst => .ok .reset

/-- SEQ4 (R107), the codes in the chain's order. -/
def decodeSeq (c : BitVec 4) : Except DecodeError Instr :=
  match c.toNat with
  | 0 => .ok .seqIdle
  | 1 => .ok .seqReset1
  | 2 => .ok .seqSelectAll1
  | 3 => .ok .seqStartConversion
  | 4 => .ok .seqConversionWait
  | 5 => .ok .seqReset2
  | 6 => .ok .seqSelectAll2
  | 7 => .ok .seqReadScratchpad
  | 8 => .ok .seqValidate
  | 9 => .ok .seqCommitted
  | 10 => .ok .seqDiscarded
  | 11 => .ok .seqAborted
  | 12 => .ok .seqTimedOut
  | _ => .error .unusedSeqCode

/-- The decoder, total on codes. -/
def decode : Code → Except DecodeError Instr
  | .calls cs => decodeCalls cs
  | .wave ts => decodeWave ts
  | .frame ts => decodeFrame ts
  | .cmd8 b => decodeCmd b
  | .func f => decodeFunc f
  | .host1 p => decodePort p
  | .seq4 c => decodeSeq c

/-! ## The encoder -/

/-- The byte frame of a transmitted byte: slot `k` carries bit `k` (R96). -/
def txFrame (b : Byte) : List Tok := (bitsOf b).flatMap fun v => (Slot.write v).wave

/-- The byte frame of a received byte: eight read slots (R96). -/
def rxFrame : List Tok := (List.replicate 8 Slot.read).flatMap Slot.wave

/-- The encoder, from the tables of `30_encoding.md`. -/
def encode : Instr → Code
  | .driveLow => .calls [.setLineMode .output, .writeLine false]
  | .release => .calls [.setLineMode .input]
  | .delay n => .calls [.delayMicroseconds n]
  | .sample => .calls [.readLine]
  | .resetDetect => .wave resetWave
  | .w1 => .wave (Slot.write true).wave
  | .w0 => .wave (Slot.write false).wave
  | .readBit => .wave Slot.read.wave
  | .txByte b => .frame (txFrame b)
  | .rxByte => .frame rxFrame
  | .selectAll => .cmd8 Config.cmdSelectAll
  | .convert => .cmd8 Config.cmdConvert
  | .readSp => .cmd8 Config.cmdReadSp
  | .crcStep c b => .func (.crcStep [c, b])
  | .computeCrc m => .func (.computeCrc m)
  | .decode r => .func (.decode (BitVec.ofBool r.valid ++ r.raw))
  | .latest => .func .latest
  | .acquire => .host1 .start
  | .reset => .host1 .rst
  | .seqIdle => .seq4 0
  | .seqReset1 => .seq4 1
  | .seqSelectAll1 => .seq4 2
  | .seqStartConversion => .seq4 3
  | .seqConversionWait => .seq4 4
  | .seqReset2 => .seq4 5
  | .seqSelectAll2 => .seq4 6
  | .seqReadScratchpad => .seq4 7
  | .seqValidate => .seq4 8
  | .seqCommitted => .seq4 9
  | .seqDiscarded => .seq4 10
  | .seqAborted => .seq4 11
  | .seqTimedOut => .seq4 12

/-! ## Formats -/

/-- The format of a code (R116). -/
def Code.format : Code → Format
  | .calls _ => .micro
  | .wave _ => .wave
  | .frame _ => .byte8
  | .cmd8 _ => .cmd8
  | .func _ => .func
  | .host1 _ => .host1
  | .seq4 _ => .seq4

/-- The format of an operation, as the opcode table's column "format" gives it. -/
def Instr.format : Instr → Format
  | .driveLow | .release | .delay _ | .sample => .micro
  | .resetDetect | .w1 | .w0 | .readBit => .wave
  | .txByte _ | .rxByte => .byte8
  | .selectAll | .convert | .readSp => .cmd8
  | .crcStep _ _ | .computeCrc _ | .decode _ | .latest => .func
  | .acquire | .reset => .host1
  | .seqIdle | .seqReset1 | .seqSelectAll1 | .seqStartConversion | .seqConversionWait => .seq4
  | .seqReset2 | .seqSelectAll2 | .seqReadScratchpad | .seqValidate => .seq4
  | .seqCommitted | .seqDiscarded | .seqAborted | .seqTimedOut => .seq4

/-! ## Words of the opcode table -/

/-- The code that a number of the opcode table stands for: the rows with a match are a byte in a command position (CMD8) and a
code of `SEQ` (SEQ4), and no number is both (log 4). The table's bit 8 of a CMD8 row is no bit of the command and is not read. -/
def codeOfTableWord (nbits w : Nat) : Option Code :=
  let v := w % 2 ^ nbits
  if v < 16 then some (.seq4 (BitVec.ofNat 4 v))
  else if v < 512 then some (.cmd8 (BitVec.ofNat 8 v))
  else none

/-- The operation the decoder reads from a number of the opcode table. -/
def decodeTableWord (nbits w : Nat) : Option Instr :=
  match codeOfTableWord nbits w with
  | some c => (decode c).toOption
  | none => none

end Sys2Proof
end

