-- ==== Sys2Proof/Machine/State.lean ====
section
/-! DEFINITION. The state of the block (R20, R41), the reasons a step can stop, and the state after reset (R40). -/

namespace Sys2Proof.Machine

/-- The states of the Command Sequencer, the values of `SEQ` (R21, R107, R200). -/
inductive SeqState
  | idle
  | reset1
  | selectAll1
  | startConversion
  | conversionWait
  | reset2
  | selectAll2
  | readScratchpad
  | validate
  | committed
  | discarded
  | aborted
  | timedOut
  deriving DecidableEq, Repr

/-- The phases of the primitive engine, the values of `PH` (R22, R143). -/
inductive Phase
  /-- `P_IDLE`: no primitive runs. -/
  | idle
  | rstLow
  | rstWait
  | rstSample
  | rstRec
  | wrLow
  | wrHigh
  | rdLow
  | rdWait
  | rdSample
  | rdRem
  | pollGap
  deriving DecidableEq, Repr

/-- The result of `RESET_DETECT` (R135). -/
inductive Presence
  | success
  | presenceFailure
  deriving DecidableEq, Repr

/-- What an operation that was asked for returns (R118, column "result"). -/
inductive Result
  | none
  | bit (b : Bit)
  | presence (p : Presence)
  | byte (b : Byte)
  | temperature (t : Temperature)
  deriving DecidableEq, Repr

/-- What the host may do to the block at a step: assert `start` or `rst`, or read `LATEST` (R8, R36, R108). Nothing else of the block
can be reached from the host side (R36, R216). -/
inductive HostCommand
  | start
  | rst
  | latest
  deriving DecidableEq, Repr

/-- MODEL: what the primitive in progress is part of (log 28). -/
inductive Use
  /-- The body of the sequencer's state, or no primitive is in progress. -/
  | sequencer
  /-- A `RESET_DETECT` that was called by itself. -/
  | reset
  /-- A `WRITE_BIT v` that was called by itself. -/
  | write (v : Bit)
  /-- A `READ_BIT` that was called by itself. -/
  | read
  /-- A byte that was called for by itself: `TX_BYTE` and the bus commands in the write phases, `RX_BYTE` in the read phases. -/
  | byte
  deriving DecidableEq, Repr

/-- The failure kinds (R270). -/
inductive Failure
  | presenceFailure
  | checksumMismatch
  | conversionTimeout
  deriving DecidableEq, Repr

/-- No step of this block ends in a fault: "No error is escalated as a fatal/process-terminating condition" (R274), every lookup
is in range (R61, R62) and every failure is a change of state (R279). So the type has no constructor (log 25). -/
inductive Fault
  deriving DecidableEq, Repr

/-- Why a step has no meaning. -/
inductive Refusal
  /-- Raised by `exec` alone, for an operation the model has not reached. Safe: the run stops. -/
  | notModelled (mnemonic : String)
  /-- Raised by `step` when what a bench calls is no operation's code (R110, R113, R134; log 17). Safe: the run stops. -/
  | undecodable (e : DecodeError)
  /-- Raised by `SAMPLE` while the block drives the line: "only meaningful in Input mode" (R133, U4; log 16). Safe: the run stops. -/
  | sampleWhileDriving
  deriving DecidableEq, Repr

/-- The state of the block. -/
structure State where
  /-- `SEQ`, the sequencer's position (R21). -/
  seq : SeqState
  /-- `PH`, the position inside a primitive (R22); at the symbol level too (log 5). -/
  ph : Phase
  /-- `TMR`, the microsecond down-counter of the tick level (R23; log 20). -/
  tmr : Nat
  /-- `DQ_OE`, 1 = the block drives the line low (R24). -/
  dqOe : Bit
  /-- `SHR`, the byte shift register (R25). -/
  shr : Byte
  /-- `BITCNT`, bits moved of the current byte, 0 to 8 (R26). -/
  bitcnt : BitVec 4
  /-- `SP[0..8]`, the scratchpad buffer (R27). -/
  sp : Vector Byte 9
  /-- `BYTECNT`, bytes received of the scratchpad, 0 to 9 (R28). -/
  bytecnt : BitVec 4
  /-- `CRC`, the running checksum (R29). -/
  crc : Byte
  /-- `RS_VALID` (R30). -/
  rsValid : Bit
  /-- `RS_RAW` (R30). -/
  rsRaw : Raw
  /-- `PRES`, the result of the last presence detection (R32). -/
  pres : Bit
  /-- `RXBIT`, the last bit read (R33). -/
  rxbit : Bit
  /-- `POLLCNT`, polls done in the current `ConversionWait` (R34). -/
  pollcnt : Nat
  /-- The line trace, oldest event first (R41). -/
  trace : List Event
  /-- The parameters (R6, R7; log 8). -/
  par : Config.Params
  /-- MODEL: the answers of the line to the samples to come (R66; log 7). -/
  dqIn : List Bit
  /-- MODEL: RESET operations so far, the counter of free values (log 23). -/
  resets : Nat
  /-- MODEL: what the host does at each step to come (R8; log 2). -/
  host : List (Option HostCommand)
  /-- MODEL: the calls of a test bench still to be served, oldest first (log 28). -/
  bench : List Code
  /-- MODEL: what the primitive in progress is part of (log 28). -/
  use : Use
  /-- MODEL: the value the last operation asked for returned (R118; log 12). -/
  res : Result
  deriving DecidableEq, Repr

/-- The state right after reset (R40). `SP` is the model's choice (log 9); `par`, `dqIn`, `resets`, `host`, `bench`, `use` and
`res` are not the spec's state (logs 2, 6, 7, 8, 12, 23, 28). -/
def State.reset : State where
  seq := .idle
  ph := .idle
  tmr := 0
  dqOe := false
  shr := 0
  bitcnt := 0
  sp := Vector.replicate 9 0
  bytecnt := 0
  crc := 0
  rsValid := false
  rsRaw := 0
  pres := false
  rxbit := false
  pollcnt := 0
  trace := []
  par := ⟨Config.tPoll, none, .symbol, Config.clkPerUs⟩
  dqIn := []
  resets := 0
  host := []
  bench := []
  use := .sequencer
  res := .none

end Sys2Proof.Machine
end

