-- ==== Sys2Proof/Machine/Env.lean ====
section
/-! DEFINITION. The line and the environment (R65, R66), and the two test fixtures of `95_test_vectors.md` section 4, which are not
part of the block: the loopback line and the reference responder (log 27). -/

namespace Sys2Proof.Machine

/-- The line: low if the block drives it or the device pulls it low (`dev` = 0), high otherwise (R65). -/
def lineLevel (oe dev : Bit) : Bit := !oe && dev

/-- What the device and the pull-up make of the released line at the next sample: the next planned answer, and past the plan
the oracle's value for the whole trace so far (R66; log 7). -/
def State.answer (s : State) : Bit :=
  match s.dqIn with
  | b :: _ => b
  | [] => Config.envSample s.resets s.trace

/-- Every sample among `events`, which follow the trace `before`, reads what the oracle `env` answers to the trace so far: the
premise on an oracle that R66 asks a claim to state. -/
def follows (env : List Event → Bit) (before : List Event) : List Event → Bool
  | [] => true
  | .smp b :: es => b == env before && follows env (before ++ [.smp b]) es
  | .low n :: es => follows env (before ++ [.low n]) es
  | .rel n :: es => follows env (before ++ [.rel n]) es

/-- The time a trace takes, in microseconds (R12, R41): a sample takes none. -/
def duration : List Event → Nat
  | [] => 0
  | .low n :: es => n + duration es
  | .rel n :: es => n + duration es
  | .smp _ :: es => duration es

/-! ## The loopback line, `95_test_vectors.md` section 4.1 -/

/-- The values of the write slots of a trace, oldest first: `Low(5)` gives 1 and `Low(60)` gives 0. -/
def writeSlotValues : List Event → List Bit
  | [] => []
  | .low n :: es =>
    if n = Config.tW1L then true :: writeSlotValues es
    else if n = Config.tW0L then false :: writeSlotValues es
    else writeSlotValues es
  | _ :: es => writeSlotValues es

/-- The number of samples in a trace. -/
def sampleCount : List Event → Nat
  | [] => 0
  | .smp _ :: es => sampleCount es + 1
  | _ :: es => sampleCount es

/-- `Env_loop`: the k-th sample returns the k-th written bit, and 1 when none is left. -/
def envLoop (trace : List Event) : Bit := (writeSlotValues trace)[sampleCount trace]?.getD true

/-! ## The reference responder, `95_test_vectors.md` section 4.2 -/

/-- The modes of the responder. `converting none` answers 0 for ever. -/
inductive RefMode
  | off
  | await
  | cmd
  | selected
  | converting (k : Option Nat)
  | reading (s : List Byte) (j : Nat)
  | mute
  deriving DecidableEq, Repr

/-- The responder's state: its mode, its accumulated bits, and what is left of its three lists. -/
structure RefDevice where
  mode : RefMode
  acc : List Bit
  present : List Bool
  busy : List (Option Nat)
  sp : List (List Byte)
  deriving DecidableEq, Repr

/-- The responder before any event. -/
def RefDevice.init (present : List Bool) (busy : List (Option Nat)) (sp : List (List Byte)) : RefDevice :=
  ⟨.off, [], present, busy, sp⟩

/-- A whole byte has come in. -/
def RefDevice.command (d : RefDevice) (b : Byte) : RefDevice :=
  match d.mode with
  | .cmd => if b = Config.cmdSelectAll then { d with mode := .selected } else { d with mode := .mute }
  | .selected =>
    if b = Config.cmdConvert then
      { d with mode := .converting (d.busy.headD (some 0)), busy := d.busy.tail }
    else if b = Config.cmdReadSp then
      { d with mode := .reading (d.sp.headD (List.replicate 9 0xFF)) 0, sp := d.sp.tail }
    else { d with mode := .mute }
  | _ => d

/-- A written bit comes in, in the modes that listen. -/
def RefDevice.bit (d : RefDevice) (v : Bit) : RefDevice :=
  match d.mode with
  | .cmd | .selected =>
    let acc := d.acc ++ [v]
    if acc.length = 8 then { d with acc := [] }.command (byteOfBits acc) else { d with acc := acc }
  | _ => d

/-- What the responder answers to a sample. -/
def RefDevice.answer (d : RefDevice) : Bit :=
  match d.mode with
  | .await => false
  | .converting (some 0) => true
  | .converting _ => false
  | .reading s j => if j < 72 then (s.getD (j / 8) 0xFF).getLsbD (j % 8) else true
  | _ => true

/-- The responder after one event. -/
def RefDevice.event (d : RefDevice) : Event → RefDevice
  | .low n =>
    if n = Config.tRSTL then
      { d with acc := [], mode := if d.present.headD true then .await else .off, present := d.present.tail }
    else if n = Config.tW1L then d.bit true
    else if n = Config.tW0L then d.bit false
    else d
  | .rel _ => d
  | .smp _ =>
    match d.mode with
    | .await => { d with mode := .cmd }
    | .converting (some (k + 1)) => { d with mode := .converting (some k) }
    | .reading s j => { d with mode := .reading s (j + 1) }
    | _ => d

/-- `Env_ref(present, busy, sp)`: the answer of the responder after the whole trace. -/
def envRef (present : List Bool) (busy : List (Option Nat)) (sp : List (List Byte)) (trace : List Event) : Bit :=
  (trace.foldl RefDevice.event (RefDevice.init present busy sp)).answer

end Sys2Proof.Machine
end

