-- ==== Sys2Proof/Machine/Operands.lean ====
section
/-! DEFINITION. How operands are read and assembled: the bits of `SHR`, the bytes of `SP`, the raw temperature, a Reading. -/

namespace Sys2Proof.Machine

/-- The bit `SHR` sends next, `SHR[0]` (R160). -/
def State.shrBit (s : State) : Bit := s.shr.getLsbD 0

/-- `SHR >> 1`, a 0 entering at bit 7 (R160). -/
def shiftOutByte (b : Byte) : Byte := b >>> 1

/-- `{r, SHR[7:1]}`: shift right, the new bit entering at bit 7 (R161). -/
def shiftInByte (r : Bit) (b : Byte) : Byte := BitVec.cons r (b.extractLsb' 1 7)

/-- `SP[0..7]`, the bytes the checksum is taken over (R101, R185). -/
def State.spMessage (s : State) : List Byte := s.sp.toList.take 8

/-- `SP[8]`, the checksum as received (R101). -/
def State.spChecksum (s : State) : Byte := s.sp[8]

/-- `{SP[1], SP[0]}`, the raw temperature, little-endian (R68, R104). -/
def State.spRaw (s : State) : Raw := s.sp[1] ++ s.sp[0]

/-- `SP[k] <- b` at `k` = `BYTECNT` (R209). `BYTECNT` is 0 to 8 there (R62). -/
def State.storeSp (b : Byte) (s : State) : State :=
  { s with sp := s.sp.setIfInBounds s.bytecnt.toNat b, bytecnt := s.bytecnt + 1 }

/-- The Reading State as a Reading (R30, R254). -/
def State.reading (s : State) : Reading := ⟨s.rsValid, s.rsRaw⟩

/-- `sint16(v)`: `v` if `v < 0x8000`, else `v - 0x10000` (R10). -/
def sint16 (v : Raw) : Int := if v.toNat < 0x8000 then (v.toNat : Int) else (v.toNat : Int) - 0x10000

end Sys2Proof.Machine
end

