-- ==== Sys2Proof/Machine/Flags.lean ====
section
/-! DEFINITION. The flags and the outputs. The block has no arithmetic condition codes (R38); its flags are `PRES`, `RXBIT`,
`RS_VALID` and `DQ_OE`, and every output is a function of state (R36). -/

namespace Sys2Proof.Machine

/-- The code of a value of `SEQ`, the output `status` (R107). -/
def SeqState.code : SeqState → BitVec 4
  | .idle => 0
  | .reset1 => 1
  | .selectAll1 => 2
  | .startConversion => 3
  | .conversionWait => 4
  | .reset2 => 5
  | .selectAll2 => 6
  | .readScratchpad => 7
  | .validate => 8
  | .committed => 9
  | .discarded => 10
  | .aborted => 11
  | .timedOut => 12

/-- The resting states (R107, R200). -/
def SeqState.resting : SeqState → Bool
  | .idle | .committed | .discarded | .aborted | .timedOut => true
  | .reset1 | .selectAll1 | .startConversion | .conversionWait => false
  | .reset2 | .selectAll2 | .readScratchpad | .validate => false

/-- The successor of a reset state whose presence sample was low (R203, R207). -/
def SeqState.afterPresence : SeqState → SeqState
  | .reset1 => .selectAll1
  | .reset2 => .selectAll2
  | other => other

/-- The phases in which the block drives the line (R37, R143). -/
def Phase.drives : Phase → Bool
  | .rstLow | .wrLow | .rdLow => true
  | .idle | .rstWait | .rstSample | .rstRec | .wrHigh | .rdWait | .rdSample | .rdRem | .pollGap => false

/-- The phases that last a time; a sample takes none (R143). -/
def Phase.timed : Phase → Bool
  | .idle | .rstSample | .rdSample => false
  | .rstLow | .rstWait | .rstRec | .wrLow | .wrHigh | .rdLow | .rdWait | .rdRem | .pollGap => true

/-- What a presence sample means: high is failure, low is presence (R32, R135, R142). -/
def presenceOf (p : Bit) : Presence := if p then .presenceFailure else .success

/-- `PRES` after a presence sample: 1 when it read low (R32). -/
def presFlag (p : Bit) : Bit := !p

/-- The output ports of R36. -/
structure Outputs where
  dqOe : Bit
  busy : Bit
  status : BitVec 4
  readingValid : Bit
  readingRaw : Raw
  tempValid : Bit
  tempQ4 : Raw
  deriving DecidableEq, Repr

/-- `busy`: a transaction is running (R36). -/
def State.busy (s : State) : Bit := !s.seq.resting

/-- Every output as a function of state (R36, R253). -/
def State.outputs (s : State) : Outputs where
  dqOe := s.dqOe
  busy := s.busy
  status := s.seq.code
  readingValid := s.rsValid
  readingRaw := s.rsRaw
  tempValid := s.rsValid
  tempQ4 := s.rsRaw

end Sys2Proof.Machine
end

