-- ==== Sys2Proof/Machine/Ops.lean ====
section
/-! DEFINITION. The shared operations: the four micro-operations (R130 to R133), the pulses and primitives made of them (R135 to
R137), the change of state each failure is (R270 to R273), reset (R311), and the Reading State's two writes (R31). -/

namespace Sys2Proof.Machine

/-- What an operation answers. -/
abbrev Answer := Host.Outcome State Fault Refusal

/-- The end of an operation that was asked for: it returns `r` (R118; log 12). -/
def finish (r : Result) (s : State) : Answer := .next { s with res := r }

/-! ## Micro-operations -/

/-- `DQ_OE <- 1` (R130). -/
def driveLow (s : State) : State := { s with dqOe := true }

/-- `DQ_OE <- 0` (R131). -/
def release (s : State) : State := { s with dqOe := false }

/-- Append an event to the trace (R41). -/
def emit (e : Event) (s : State) : State := { s with trace := s.trace ++ [e] }

/-- `DELAY n` at the symbol level: `Low(n)` if the block drives the line, else `Rel(n)` (R132). -/
def delay (n : Nat) (s : State) : State := emit (if s.dqOe then .low n else .rel n) s

/-- `SAMPLE`: the level of the line, and the state with `Smp(b)` appended (R65, R133). -/
def sample (s : State) : Bit × State :=
  let b := lineLevel s.dqOe s.answer
  (b, emit (.smp b) { s with dqIn := s.dqIn.tail })

/-! ## Primitives -/

/-- A low pulse of `l` µs, then the line released for `h` µs. -/
def pulse (l h : Nat) (s : State) : State := delay h (release (delay l (driveLow s)))

/-- The low time and the released time of a write slot (R136). -/
def writeTimes (v : Bit) : Nat × Nat :=
  if v then (Config.tW1L, Config.tW1H) else (Config.tW0L, Config.tW0H)

/-- `WRITE_BIT v` (R136). -/
def writeBit (v : Bit) (s : State) : State := pulse (writeTimes v).1 (writeTimes v).2 s

/-- `READ_BIT` (R137): the bit and the state. -/
def readBit (s : State) : Bit × State :=
  let p := sample (pulse Config.tRDL Config.tRDS s)
  (p.1, delay Config.tRDREM { p.2 with rxbit := p.1 })

/-- `RESET_DETECT` (R135): the presence sample and the state. -/
def resetDetect (s : State) : Bit × State :=
  let p := sample (pulse Config.tRSTL Config.tPDS s)
  (p.1, { (if p.1 then p.2 else delay Config.tRSTREC p.2) with pres := presFlag p.1 })

/-! ## The Reading State -/

/-- The write of `Committed` (R31, R210). -/
def commitReading (raw : Raw) (s : State) : State := { s with rsValid := true, rsRaw := raw }

/-- The write of `Discarded` (R31, R210). -/
def clearReading (s : State) : State := { s with rsValid := false, rsRaw := 0 }

/-! ## Failures -/

/-- Raising a failure is this change of state and nothing else (R279): `PRES` <- 0, `SEQ` <- `Aborted`, the line released (R271);
the Reading State invalid, `SEQ` <- `Discarded` (R272); `SEQ` <- `TimedOut`, the line released (R273). -/
def raiseFailure : Failure → State → State
  | .presenceFailure, s => { s with pres := false, seq := .aborted, dqOe := false }
  | .checksumMismatch, s => { clearReading s with seq := .discarded }
  | .conversionTimeout, s => { s with seq := .timedOut, dqOe := false }

/-- Leaving a failure's resting state, or any other, is the next `ACQUIRE`: `SEQ` <- `Reset1`, nothing of the failed transaction
is resumed (R201, R281). While a transaction runs `start` is ignored (R111). -/
def acquire (s : State) : State := if s.seq.resting then { s with seq := .reset1 } else s

/-! ## Reset -/

/-- Reset: every state element at the value of R40, `SP` unspecified, the trace empty (R311). The parameters are not affected; the
host's commands and the bench's calls still to come stay. A reset while busy leaves the device's answers open (R312, U1;
logs 10, 11, 23). A reset that cuts an operation called by the bench at rest, before its eight slots (R164) or in its pulse, is the model's
choice too: DESIGN CHOICE, the planned answers stay (log 11). -/
def resetState (s : State) : State :=
  { State.reset with
    sp := Vector.ofFn fun k : Fin 9 => Config.freeSp s.resets k.val
    par := s.par
    dqIn := if s.busy then [] else s.dqIn
    resets := s.resets + 1
    host := s.host
    bench := s.bench }

end Sys2Proof.Machine
end

