-- ==== Sys2Proof/Machine/Decoder.lean ====
section
/-! DEFINITION. The temperature decoder and the reading accessor: `DECODE`, `LATEST` (R250, R254). -/

namespace Sys2Proof.Machine

/-- `DECODE(invalid) = invalid`, `DECODE(valid(raw16)) = sint16(raw16) / 16`, in sixteenths (R250, R251; log 18). -/
def decodeReading (r : Reading) : Temperature :=
  if r.valid then .sixteenths (sint16 r.raw) else .invalid

/-- A temperature in degrees, the exact rational (R250, R253). -/
def degrees : Temperature → Option Rat
  | .invalid => none
  | .sixteenths n => some ((n : Rat) / 16)

/-- `LATEST = DECODE` of the Reading State (R254). -/
def latest (s : State) : Temperature := decodeReading s.reading

/-- `DECODE r` (R250): no state is written but what is returned. -/
def execDecode (r : Reading) (s : State) : Answer := finish (.temperature (decodeReading r)) s

/-- `LATEST` (R254): "returns the decoded value without side effects". -/
def execLatest (s : State) : Answer := finish (.temperature (latest s)) s

end Sys2Proof.Machine
end

