-- ==== Sys2Proof/Machine/Line.lean ====
section
/-! DEFINITION. The micro-operations (R130 to R133) and the line symbols (R135 to R137) as operations. -/

namespace Sys2Proof.Machine

/-- `DRIVE_LOW` (R130). -/
def execDriveLow (s : State) : Answer := finish .none (driveLow s)

/-- `RELEASE` (R131). -/
def execRelease (s : State) : Answer := finish .none (release s)

/-- `DELAY n` (R132). -/
def execDelay (n : Nat) (s : State) : Answer := finish .none (delay n s)

/-- `SAMPLE` (R133): "require DQ_OE = 0"; with the line driven it has no meaning (U4; log 16). -/
def execSample (s : State) : Answer :=
  if s.dqOe then .refused .sampleWhileDriving
  else finish (.bit (sample s).1) (sample s).2

/-- `RESET_DETECT` (R135). -/
def execResetDetect (s : State) : Answer :=
  finish (.presence (presenceOf (resetDetect s).1)) (resetDetect s).2

/-- `W1`, `WRITE_BIT 1` (R136). -/
def execW1 (s : State) : Answer := finish .none (writeBit true s)

/-- `W0`, `WRITE_BIT 0` (R136). -/
def execW0 (s : State) : Answer := finish .none (writeBit false s)

/-- `READ_BIT` (R137). -/
def execReadBit (s : State) : Answer := finish (.bit (readBit s).1) (readBit s).2

end Sys2Proof.Machine
end

