-- ==== Sys2Proof/Machine/Serializer.lean ====
section
/-! DEFINITION. The byte serializer: `TX_BYTE`, `RX_BYTE` (R160, R161) and the bus commands, each one `TX_BYTE` (R119). -/

namespace Sys2Proof.Machine

/-- Send `SHR[0]` and shift (R160). -/
def txSlot (s : State) : State :=
  let t := writeBit s.shrBit s
  { t with shr := shiftOutByte t.shr, bitcnt := t.bitcnt + 1 }

/-- `n` slots of a transmitted byte. -/
def txSlots : Nat → State → State
  | 0, s => s
  | n + 1, s => txSlots n (txSlot s)

/-- `TX_BYTE b` (R160). -/
def txByte (b : Byte) (s : State) : State := txSlots 8 { s with shr := b, bitcnt := 0 }

/-- Place a bit that was read (R161). -/
def shiftIn (r : Bit) (s : State) : State :=
  { s with shr := shiftInByte r s.shr, bitcnt := s.bitcnt + 1 }

/-- One slot of a received byte (R161). -/
def rxSlot (s : State) : State := shiftIn (readBit s).1 (readBit s).2

/-- `n` slots of a received byte. -/
def rxSlots : Nat → State → State
  | 0, s => s
  | n + 1, s => rxSlots n (rxSlot s)

/-- `RX_BYTE` (R161); the byte is then in `SHR`. -/
def rxByte (s : State) : State := rxSlots 8 { s with shr := 0, bitcnt := 0 }

/-- `TX_BYTE b` (R160). -/
def execTxByte (b : Byte) (s : State) : Answer := finish .none (txByte b s)

/-- `RX_BYTE` (R161): "return SHR". -/
def execRxByte (s : State) : Answer := finish (.byte (rxByte s).shr) (rxByte s)

/-- `SELECT_ALL` (R119, R204): transmit `0xCC`. -/
def execSelectAll (s : State) : Answer := finish .none (txByte Config.cmdSelectAll s)

/-- `CONVERT` (R119, R205): transmit `0x44`. -/
def execConvert (s : State) : Answer := finish .none (txByte Config.cmdConvert s)

/-- `READ_SP` (R119, R209): transmit `0xBE`. -/
def execReadSp (s : State) : Answer := finish .none (txByte Config.cmdReadSp s)

end Sys2Proof.Machine
end

