-- ==== Sys2Proof/Machine/Sequencer.lean ====
section
/-! DEFINITION. The command sequencer: the host commands `ACQUIRE` and `RESET`, and the body of each sequencer state (R201 to R214).
Executing a state's row runs its body once and goes to the successor the body names (R200). -/

namespace Sys2Proof.Machine

/-! ## Bodies -/

/-- The body of `Reset1` and `Reset2`: the successor on presence, the failure otherwise (R203, R207). -/
def resetBody (next : SeqState) (s : State) : State :=
  if (resetDetect s).1 then raiseFailure .presenceFailure (resetDetect s).2
  else { (resetDetect s).2 with seq := next }

/-- Transmit a command, then the successor (R204, R205, R208). -/
def commandBody (b : Byte) (next : SeqState) (s : State) : State := { txByte b s with seq := next }

/-- What follows a poll that read `r`: count it; leave on a 1; give up at the limit; otherwise wait `T_POLL` (R206). -/
def afterPoll (r : Bit) (s : State) : State :=
  let t := { s with pollcnt := s.pollcnt + 1 }
  if r then { t with seq := .reset2 }
  else if t.par.pollLimit = some t.pollcnt then raiseFailure .conversionTimeout t
  else delay t.par.tPoll t

/-- One poll of `ConversionWait` (R206, R215; log 5). -/
def pollBody (s : State) : State := afterPoll (readBit s).1 (readBit s).2

/-- Receive `n` bytes into `SP` at `BYTECNT`, `BYTECNT` + 1, … (R209). -/
def receiveBytes : Nat → State → State
  | 0, s => s
  | n + 1, s => receiveBytes n ((rxByte s).storeSp (rxByte s).shr)

/-- The body of `ReadScratchpad` (R209). -/
def readScratchpadBody (s : State) : State :=
  { receiveBytes 9 { txByte Config.cmdReadSp s with bytecnt := 0 } with seq := .validate }

/-- The body of `Validate` (R210): the checksum, the comparison, and one change of the Reading State with `SEQ`. -/
def validateBody (s : State) : State :=
  let t := { s with crc := computeCrc s.spMessage }
  if t.crc = t.spChecksum then { commitReading t.spRaw t with seq := .committed }
  else raiseFailure .checksumMismatch t

/-! ## Host commands -/

/-- `ACQUIRE` (R201). -/
def execAcquire (s : State) : Answer := finish .none (acquire s)

/-- `RESET` (R311). -/
def execReset (s : State) : Answer := finish .none (resetState s)

/-! ## Sequencer states -/

/-- `SEQ.Idle` (R202): nothing runs; without `ACQUIRE` it stays (R215). The rows of the resting states write nothing: `SEQ` comes to
`Committed`, `Discarded`, `Aborted`, `TimedOut` by the body of the state before, and to `Idle` by reset alone. -/
def execSeqIdle (s : State) : Answer := .next s

/-- `SEQ.Reset1` (R203). -/
def execSeqReset1 (s : State) : Answer := .next (resetBody .selectAll1 s)

/-- `SEQ.SelectAll1` (R204). -/
def execSeqSelectAll1 (s : State) : Answer :=
  .next (commandBody Config.cmdSelectAll .startConversion s)

/-- `SEQ.StartConversion` (R205); `POLLCNT` is set to 0 on entry to `ConversionWait` (R34, R206; log 13). -/
def execSeqStartConversion (s : State) : Answer :=
  .next { commandBody Config.cmdConvert .conversionWait s with pollcnt := 0 }

/-- `SEQ.ConversionWait` (R206): one poll; without a 1 and below the limit it stays (R215). -/
def execSeqConversionWait (s : State) : Answer := .next (pollBody s)

/-- `SEQ.Reset2` (R207). -/
def execSeqReset2 (s : State) : Answer := .next (resetBody .selectAll2 s)

/-- `SEQ.SelectAll2` (R208). -/
def execSeqSelectAll2 (s : State) : Answer :=
  .next (commandBody Config.cmdSelectAll .readScratchpad s)

/-- `SEQ.ReadScratchpad` (R209). -/
def execSeqReadScratchpad (s : State) : Answer := .next (readScratchpadBody s)

/-- `SEQ.Validate` (R210). -/
def execSeqValidate (s : State) : Answer := .next (validateBody s)

/-- `SEQ.Committed` (R211): a resting state. -/
def execSeqCommitted (s : State) : Answer := .next s

/-- `SEQ.Discarded` (R212): a resting state. -/
def execSeqDiscarded (s : State) : Answer := .next s

/-- `SEQ.Aborted` (R213): a resting state. -/
def execSeqAborted (s : State) : Answer := .next s

/-- `SEQ.TimedOut` (R214): a resting state. -/
def execSeqTimedOut (s : State) : Answer := .next s

end Sys2Proof.Machine
end

