-- ==== Sys2Proof/Machine/Dispatch.lean ====
section
/-! DEFINITION. The meaning of every operation: one arm per row of spec/opcode_table.json. -/

namespace Sys2Proof.Machine

/-- Run an operation to its end (R11, `call P(args)`; R141). -/
def exec (i : Instr) (s : State) : Host.Outcome State Fault Refusal :=
  match i with
  | .driveLow => Sys2Proof.Machine.execDriveLow s
  | .release => Sys2Proof.Machine.execRelease s
  | .delay n => Sys2Proof.Machine.execDelay n s
  | .sample => Sys2Proof.Machine.execSample s
  | .resetDetect => Sys2Proof.Machine.execResetDetect s
  | .w1 => Sys2Proof.Machine.execW1 s
  | .w0 => Sys2Proof.Machine.execW0 s
  | .readBit => Sys2Proof.Machine.execReadBit s
  | .txByte b => Sys2Proof.Machine.execTxByte b s
  | .rxByte => Sys2Proof.Machine.execRxByte s
  | .selectAll => Sys2Proof.Machine.execSelectAll s
  | .convert => Sys2Proof.Machine.execConvert s
  | .readSp => Sys2Proof.Machine.execReadSp s
  | .crcStep c b => Sys2Proof.Machine.execCrcStep c b s
  | .computeCrc m => Sys2Proof.Machine.execComputeCrc m s
  | .decode r => Sys2Proof.Machine.execDecode r s
  | .latest => Sys2Proof.Machine.execLatest s
  | .acquire => Sys2Proof.Machine.execAcquire s
  | .reset => Sys2Proof.Machine.execReset s
  | .seqIdle => Sys2Proof.Machine.execSeqIdle s
  | .seqReset1 => Sys2Proof.Machine.execSeqReset1 s
  | .seqSelectAll1 => Sys2Proof.Machine.execSeqSelectAll1 s
  | .seqStartConversion => Sys2Proof.Machine.execSeqStartConversion s
  | .seqConversionWait => Sys2Proof.Machine.execSeqConversionWait s
  | .seqReset2 => Sys2Proof.Machine.execSeqReset2 s
  | .seqSelectAll2 => Sys2Proof.Machine.execSeqSelectAll2 s
  | .seqReadScratchpad => Sys2Proof.Machine.execSeqReadScratchpad s
  | .seqValidate => Sys2Proof.Machine.execSeqValidate s
  | .seqCommitted => Sys2Proof.Machine.execSeqCommitted s
  | .seqDiscarded => Sys2Proof.Machine.execSeqDiscarded s
  | .seqAborted => Sys2Proof.Machine.execSeqAborted s
  | .seqTimedOut => Sys2Proof.Machine.execSeqTimedOut s

end Sys2Proof.Machine
end

