-- ==== Sys2Proof/Machine/Tick.lean ====
section
/-! DEFINITION. The two levels of R9, run by the block's registers alone, `SEQ`, `PH`, `TMR`, `SHR`, `BITCNT`, `BYTECNT`: one table of
phases (R143) and what follows each, and over it the symbol level, a micro-operation a step (R9 a), and the tick level, a microsecond or
a change of phase a step (R9 b; log 19). -/

namespace Sys2Proof.Machine

/-! ## Phases -/

/-- The bit the write slot in progress carries: the operand of a `WRITE_BIT` called by itself, else `SHR[0]` (R136, R160). -/
def State.wrBit (s : State) : Bit :=
  match s.use with
  | .write v => v
  | .sequencer | .reset | .read | .byte => s.shrBit

/-- How long the phase lasts (R143). -/
def State.phaseTime (s : State) : Nat :=
  match s.ph with
  | .idle | .rstSample | .rdSample => 0
  | .rstLow => Config.tRSTL
  | .rstWait => Config.tPDS
  | .rstRec => Config.tRSTREC
  | .wrLow => (writeTimes s.wrBit).1
  | .wrHigh => (writeTimes s.wrBit).2
  | .rdLow => Config.tRDL
  | .rdWait => Config.tRDS
  | .rdRem => Config.tRDREM
  | .pollGap => s.par.tPoll

/-- The next phase of the primitive. -/
def goTo (ph : Phase) (s : State) : State := { s with ph := ph }

/-- Leave the body of a sequencer state: no primitive runs (R143). -/
def leaveTo (next : SeqState) (s : State) : State := { s with seq := next, ph := .idle }

/-- An operation that was called by itself has ended: it returns `r`, and no primitive runs (R118; log 28). -/
def callDone (r : Result) (s : State) : State := { s with ph := .idle, use := .sequencer, res := r }

/-- The start of `TX_BYTE b` (R160). -/
def startTx (b : Byte) (s : State) : State := { s with shr := b, bitcnt := 0, ph := .wrLow }

/-- The start of `RX_BYTE` (R161). -/
def startRx (s : State) : State := { s with shr := 0, bitcnt := 0, ph := .rdLow }

/-! ## What the end of a primitive or a byte leads to -/

/-- No primitive runs: the sequencer starts the body of its state, and rests in a resting state (R200). -/
def beginBody (s : State) : State :=
  match s.seq with
  | .idle | .committed | .discarded | .aborted | .timedOut => s
  | .reset1 | .reset2 => goTo .rstLow s
  | .selectAll1 | .selectAll2 => startTx Config.cmdSelectAll s
  | .startConversion => startTx Config.cmdConvert s
  | .conversionWait => goTo .rdLow s
  | .readScratchpad => startTx Config.cmdReadSp s
  | .validate => validateBody s

/-- The sequencer's byte has been sent (R204, R205, R208, R209). -/
def byteSent (s : State) : State :=
  match s.seq with
  | .selectAll1 => leaveTo .startConversion s
  | .startConversion => leaveTo .conversionWait { s with pollcnt := 0 }
  | .selectAll2 => leaveTo .readScratchpad s
  | .readScratchpad => startRx { s with bytecnt := 0 }
  | .idle | .reset1 | .conversionWait | .reset2 | .validate => leaveTo s.seq s
  | .committed | .discarded | .aborted | .timedOut => leaveTo s.seq s

/-- A write slot of a byte has ended: shift, and go on with the byte (R160). -/
def sentBitEnded (s : State) : State :=
  let t := { s with shr := shiftOutByte s.shr, bitcnt := s.bitcnt + 1 }
  if t.bitcnt = 8 then (if t.use = .byte then callDone .none t else byteSent t) else goTo .wrLow t

/-- A write slot has ended (R136). -/
def writeSlotEnded (s : State) : State :=
  match s.use with
  | .write _ => callDone .none s
  | .sequencer | .reset | .read | .byte => sentBitEnded s

/-- The sequencer's byte has been received (R209). -/
def byteReceived (s : State) : State :=
  let t := s.storeSp s.shr
  if t.bytecnt = 9 then leaveTo .validate t else startRx t

/-- A read slot of a byte has ended: shift the bit in, and go on with the byte (R161). -/
def receivedBitEnded (s : State) : State :=
  let t := shiftIn s.rxbit s
  if t.bitcnt = 8 then (if t.use = .byte then callDone (.byte t.shr) t else byteReceived t) else goTo .rdLow t

/-- A poll has ended (R206). -/
def pollEnded (s : State) : State :=
  let t := { s with pollcnt := s.pollcnt + 1 }
  if s.rxbit then leaveTo .reset2 t
  else if t.par.pollLimit = some t.pollcnt then { raiseFailure .conversionTimeout t with ph := .idle }
  else goTo .pollGap t

/-- A read slot has ended: one called by itself, a bit of a byte, or a poll (R137). -/
def readSlotEnded (s : State) : State :=
  match s.use with
  | .read => callDone (.bit s.rxbit) s
  | .byte => receivedBitEnded s
  | .sequencer | .reset | .write _ => if s.seq = .conversionWait then pollEnded s else receivedBitEnded s

/-- `RESET_DETECT` without presence has ended: the sequencer aborts, and a caller gets the result (R135, R203, R207). -/
def presenceFailed (s : State) : State :=
  if s.use = .reset then callDone (.presence .presenceFailure) { s with pres := false }
  else { raiseFailure .presenceFailure s with ph := .idle }

/-- `RESET_DETECT` with presence has ended (R135, R203, R207). -/
def presenceFound (s : State) : State :=
  if s.use = .reset then callDone (.presence .success) { s with pres := true }
  else leaveTo s.seq.afterPresence { s with pres := true }

/-- The phase has ended, a sample phase by its sample: what comes next (R143). Outside the sample phases nothing is done on the line. -/
def phaseEnded (s : State) : State :=
  match s.ph with
  | .idle => beginBody s
  | .rstLow => goTo .rstWait s
  | .rstWait => goTo .rstSample s
  | .rstSample => if (sample s).1 then presenceFailed (sample s).2 else goTo .rstRec (sample s).2
  | .rstRec => presenceFound s
  | .wrLow => goTo .wrHigh s
  | .wrHigh => writeSlotEnded s
  | .rdLow => goTo .rdWait s
  | .rdWait => goTo .rdSample s
  | .rdSample => goTo .rdRem { (sample s).2 with rxbit := (sample s).1 }
  | .rdRem => readSlotEnded s
  | .pollGap => goTo .idle s

/-! ## The symbol level -/

/-- One micro-operation of the primitive in progress (R9 a): `DRIVE_LOW` or `RELEASE` where the line mode is not yet the phase's,
else the phase's `DELAY` or `SAMPLE`. -/
def microStep (s : State) : State :=
  if s.ph.timed then
    if s.dqOe = s.ph.drives then phaseEnded (delay s.phaseTime s)
    else if s.ph.drives then driveLow s else release s
  else phaseEnded s

/-- One step at the symbol level: a micro-operation, the first of a body together with what the body sets up; or `Validate`, which does
nothing on the line; or nothing, in a resting state. -/
def symbolStep (s : State) : State :=
  if s.ph = .idle then
    if (beginBody s).ph = .idle then beginBody s else microStep (beginBody s)
  else microStep s

/-- `n` steps at the symbol level. -/
def symbolSteps : Nat → State → State
  | 0, s => s
  | n + 1, s => symbolSteps n (symbolStep s)

/-! ## The tick level -/

/-- Enter the phase: the line mode is the phase's, and "On entry to a timed phase `TMR` is loaded with the duration" (R143). -/
def enterPhase (s : State) : State :=
  if s.ph.timed then { delay s.phaseTime { s with dqOe := s.ph.drives } with tmr := s.phaseTime } else s

/-- One tick: `TMR` counts down once per microsecond; "the phase ends when `TMR` reaches 0" (R23, R143). -/
def tick (s : State) : State :=
  if s.tmr = 0 then enterPhase (phaseEnded s) else { s with tmr := s.tmr - 1 }

/-- `n` ticks. -/
def ticks : Nat → State → State
  | 0, s => s
  | n + 1, s => ticks n (tick s)

/-- The microseconds that `n` ticks take: a tick with `TMR` = 0 takes no time. -/
def elapsed : Nat → State → Nat
  | 0, _ => 0
  | n + 1, s => (if s.tmr = 0 then 0 else 1) + elapsed n (tick s)

end Sys2Proof.Machine
end

