-- ==== Sys2Proof/Machine/Call.lean ====
section
/-! DEFINITION. An operation called by itself (log 28), at the level of description the machine has: as a whole, a micro-operation a step,
or with its phases and its microseconds. -/

namespace Sys2Proof.Machine

/-- A primitive or a byte set up to begin, none of its micro-operations done (R135 to R137, R160, R161); the other operations have no
phases. -/
def begun : Instr → State → Option State
  | .resetDetect, s => some { s with ph := .rstLow, use := .reset }
  | .w1, s => some { s with ph := .wrLow, use := .write true }
  | .w0, s => some { s with ph := .wrLow, use := .write false }
  | .readBit, s => some { s with ph := .rdLow, use := .read }
  | .txByte b, s => some { startTx b s with use := .byte }
  | .rxByte, s => some { startRx s with use := .byte }
  | .selectAll, s => some { startTx Config.cmdSelectAll s with use := .byte }
  | .convert, s => some { startTx Config.cmdConvert s with use := .byte }
  | .readSp, s => some { startTx Config.cmdReadSp s with use := .byte }
  | .driveLow, _ | .release, _ | .delay _, _ | .sample, _ => none
  | .crcStep _ _, _ | .computeCrc _, _ | .decode _, _ | .latest, _ | .acquire, _ | .reset, _ => none
  | .seqIdle, _ | .seqReset1, _ | .seqSelectAll1, _ | .seqStartConversion, _ | .seqConversionWait, _ => none
  | .seqReset2, _ | .seqSelectAll2, _ | .seqReadScratchpad, _ | .seqValidate, _ => none
  | .seqCommitted, _ | .seqDiscarded, _ | .seqAborted, _ | .seqTimedOut, _ => none

/-- What a `DELAY` called by itself loads `TMR` with at the tick level (R132). -/
def delayTime : Instr → Nat
  | .delay n => n
  | .driveLow | .release | .sample | .resetDetect | .w1 | .w0 | .readBit => 0
  | .txByte _ | .rxByte | .selectAll | .convert | .readSp => 0
  | .crcStep _ _ | .computeCrc _ | .decode _ | .latest | .acquire | .reset => 0
  | .seqIdle | .seqReset1 | .seqSelectAll1 | .seqStartConversion | .seqConversionWait => 0
  | .seqReset2 | .seqSelectAll2 | .seqReadScratchpad | .seqValidate => 0
  | .seqCommitted | .seqDiscarded | .seqAborted | .seqTimedOut => 0

/-- `TMR` loaded, in an answer (R132). -/
def loadTimer (n : Nat) : Answer → Answer
  | .next s => .next { s with tmr := n }
  | .fault f => .fault f
  | .refused r => .refused r

/-- The first step of an operation called by itself: all of it at the operation level; its first micro-operation at the symbol level; its
first phase entered at the tick level, or `TMR` loaded (R9, R132, R143). -/
def runCall (i : Instr) (s : State) : Answer :=
  match s.par.level, begun i s with
  | .operation, _ => exec i s
  | .symbol, some t => .next (microStep t)
  | .symbol, none => exec i s
  | .tick, some t => .next (enterPhase t)
  | .tick, none => loadTimer (delayTime i) (exec i s)

end Sys2Proof.Machine
end

