-- ==== Sys2Proof/Machine/Fetch.lean ====
section
/-! DEFINITION. Where a step's work comes from: the host's ports (R36, R108), a test bench's calls (log 28), and otherwise `SEQ` and `PH`,
the block's program counter (R21, R22). -/

namespace Sys2Proof.Machine

/-- The code of what the host does (R108, R118). -/
def HostCommand.code : HostCommand → Code
  | .start => .host1 .start
  | .rst => .host1 .rst
  | .latest => .func .latest

/-- The codes of operations a bench may call by name (R118). `SEQ` is no input, only seen on `status` (R36, R107), and the two ports are
the host's (R108). -/
def callable : Code → Bool
  | .calls _ | .wave _ | .frame _ | .cmd8 _ | .func _ => true
  | .host1 _ | .seq4 _ => false

/-- Nothing is in progress: no transaction, no primitive, no delay (R141, R216). -/
def State.free (s : State) : Bool := s.seq.resting && s.ph == .idle && s.tmr == 0

/-- What a step at this state does. -/
inductive Fetched
  /-- What the host does; it is taken from the list. -/
  | asked (c : Code)
  /-- A call that is served; it is taken from the list. -/
  | called (c : Code)
  /-- The body of the sequencer's state, as a whole (operation level). -/
  | sequencer (c : BitVec 4)
  /-- A micro-operation (symbol level). -/
  | micro
  /-- A tick. -/
  | tick
  deriving DecidableEq, Repr

/-- What the block does by itself (R9; logs 5, 6). -/
def ownFetch (s : State) : Fetched :=
  match s.par.level with
  | .operation => if s.ph = .idle then .sequencer s.seq.code else .micro
  | .symbol => .micro
  | .tick => .tick

/-- What a step does when the host does nothing: a call is served only when nothing is in progress, and waits otherwise. -/
def benchFetch (s : State) : Fetched :=
  match s.bench with
  | c :: _ => if callable c && s.free then .called c else ownFetch s
  | [] => ownFetch s

/-- The next thing to do. The host comes first: `rst` and `LATEST` come at any time (R255, R311), and `start` is ignored while busy by
what it means (R111). -/
def fetch (s : State) : Fetched :=
  match s.host with
  | some a :: _ => .asked a.code
  | none :: _ => benchFetch s
  | [] => benchFetch s

/-- The calls left after this step. -/
def benchRest (s : State) : List Code :=
  match fetch s with
  | .called _ => s.bench.tail
  | .asked _ | .sequencer _ | .micro | .tick => s.bench

/-- The state with what this step takes from the two lists gone. -/
def taken (s : State) : State := { s with host := s.host.tail, bench := benchRest s }

/-- The value of `SEQ` with a code (R107). -/
def seqOfCode (c : BitVec 4) : Option SeqState :=
  match c.toNat with
  | 0 => some .idle
  | 1 => some .reset1
  | 2 => some .selectAll1
  | 3 => some .startConversion
  | 4 => some .conversionWait
  | 5 => some .reset2
  | 6 => some .selectAll2
  | 7 => some .readScratchpad
  | 8 => some .validate
  | 9 => some .committed
  | 10 => some .discarded
  | 11 => some .aborted
  | 12 => some .timedOut
  | _ => none

/-- The machine at the operation level with nothing in progress in a state of the sequencer, and the host idle at the next step. -/
def placed (q : SeqState) (s : State) : State :=
  { s with
    seq := q, ph := .idle, tmr := 0, use := .sequencer, par := { s.par with level := .operation },
    host := none :: s.host }

/-- Call an operation at the next step, as a whole. A transaction in progress is not gone on with, since a call waits for it. -/
def placeCall (c : Code) (s : State) : State :=
  { placed (if s.busy then .idle else s.seq) s with bench := c :: s.bench }

/-- Put the sequencer into a state whose body the next step runs as a whole. No call comes before it. -/
def placeSeq (q : SeqState) (s : State) : State := { placed q s with bench := [] }

end Sys2Proof.Machine
end

