-- ==== Sys2Proof/Machine/Step.lean ====
section
/-! DEFINITION. One step: what the host does, a call that is served, or the block's own next work. -/

namespace Sys2Proof.Machine

/-- Decode a code and run the operation as `run` does. -/
def runCode (run : Instr → State → Answer) (c : Code) (s : State) : Host.Outcome State Fault Refusal :=
  match decode c with
  | .ok i => run i s
  | .error e => .refused (.undecodable e)

/-- One step (logs 2, 5, 6, 19, 28). -/
def step (s : State) : Host.Outcome State Fault Refusal :=
  match fetch s with
  | .asked c => runCode exec c (taken s)
  | .called c => runCode runCall c (taken s)
  | .sequencer c => runCode exec (.seq4 c) (taken s)
  | .micro => .next (symbolStep (taken s))
  | .tick => .next (tick (taken s))

/-- The state with a number of the opcode table placed where the next step fetches: a code of `SEQ` in `SEQ`, a command byte as a call; a
number that is no code calls an empty waveform, which is refused (logs 2, 4, 28). -/
def State.withFetchWord (s : State) (nbits w : Nat) : State :=
  match codeOfTableWord nbits w with
  | some (.seq4 c) =>
    match seqOfCode c with
    | some q => placeSeq q s
    | none => placeCall (.wave []) s
  | some c => placeCall c s
  | none => placeCall (.wave []) s

end Sys2Proof.Machine
end

