-- ==== Sys2Proof/Safety.lean ====
section
/-! DEFINITION. The terms claims are stated in: runs, the events of each line symbol, the invariant of the state, and the table of
the sequencer's transitions. -/

namespace Sys2Proof.Machine

/-! ## Runs -/

/-- `n` steps, stopping at the first refusal. -/
def runSteps : Nat → State → Answer
  | 0, s => .next s
  | n + 1, s =>
    match step s with
    | .next t => runSteps n t
    | .fault f => .fault f
    | .refused r => .refused r

/-- A safe step: it answers a next state. -/
def SafeStep (s : State) : Prop := ∃ t, step s = .next t

/-- A state some number of steps after another. -/
def ReachedFrom (s t : State) : Prop := ∃ n, runSteps n s = .next t

/-- The host does nothing at this step. -/
def HostIdle (s : State) : Prop := s.host = [] ∨ ∃ rest, s.host = none :: rest

/-- The block runs by itself, at the operation level, with no primitive in progress and nothing asked for. -/
def RunsAlone (s : State) : Prop := s.par.level = .operation ∧ s.ph = .idle ∧ s.host = [] ∧ s.bench = []

/-- A resting state in which the host asserts `start`, at the operation level (R201). -/
def StartsTransaction (s : State) : Prop :=
  s.seq.resting = true ∧ s.par.level = .operation ∧ s.ph = .idle ∧ s.host = [some .start] ∧ s.bench = []

/-! ## Events of the line symbols -/

/-- `W1` and `W0` (R92, R93). -/
def writeSlotEvents (v : Bit) : List Event := if v then [.low 5, .rel 60] else [.low 60, .rel 5]

/-- A read slot that read `b` (R94). -/
def readSlotEvents (b : Bit) : List Event := [.low 3, .rel 10, .smp b, .rel 52]

/-- A reset frame (R91): the recovery wait is there only if the sample read 0. -/
def resetEvents (p : Bit) : List Event :=
  if p then [.low 500, .rel 65, .smp true] else [.low 500, .rel 65, .smp false, .rel 435]

/-- A transmitted byte (R96). -/
def sentByteEvents (b : Byte) : List Event := (bitsOf b).flatMap writeSlotEvents

/-- A received byte (R96). -/
def receivedByteEvents (b : Byte) : List Event := (bitsOf b).flatMap readSlotEvents

/-- Polls that read 0, each followed by the poll delay (R206). -/
def failedPollEvents (k tPoll : Nat) : List Event :=
  (List.replicate k (readSlotEvents false ++ [.rel tPoll])).flatten

/-- The first half of an acquisition, up to its polls (R99, R219). -/
def convertEvents : List Event := resetEvents false ++ sentByteEvents 0xCC ++ sentByteEvents 0x44

/-- The second half of an acquisition that receives the bytes `m` (R100, R219). -/
def readEvents (m : List Byte) : List Event :=
  resetEvents false ++ sentByteEvents 0xCC ++ sentByteEvents 0xBE ++ m.flatMap receivedByteEvents

/-- Every low pulse among the events is followed by a released wait: the line is not driven at a sample, and no two pulses run
into each other (R37, R139, R314). -/
def lowsReleased : List Event → Bool
  | [] => true
  | .low _ :: .rel _ :: es => lowsReleased es
  | .low _ :: _ => false
  | .rel _ :: es => lowsReleased es
  | .smp _ :: es => lowsReleased es

/-! ## The invariant -/

/-- A write slot is right: one called by itself, or a byte is being sent and fewer than eight of its bits have gone (R26, R160). -/
def State.writes (s : State) : Bool :=
  match s.use with
  | .write _ => true
  | .byte => decide (s.bitcnt.toNat < 8)
  | .sequencer =>
    (s.seq == .selectAll1 || s.seq == .startConversion || s.seq == .selectAll2 || s.seq == .readScratchpad)
      && decide (s.bitcnt.toNat < 8)
  | .reset | .read => false

/-- A read slot is right: one called by itself, a bit of a byte, or a poll (R26, R28, R206, R209). -/
def State.reads (s : State) : Bool :=
  match s.use with
  | .read => true
  | .byte => decide (s.bitcnt.toNat < 8)
  | .sequencer =>
    s.seq == .conversionWait
      || (s.seq == .readScratchpad && decide (s.bitcnt.toNat < 8) && decide (s.bytecnt.toNat < 9))
  | .reset | .write _ => false

/-- A reset frame is right: one called by itself, or the sequencer is in one of its two reset states. -/
def State.inReset (s : State) : Bool :=
  match s.use with
  | .reset => true
  | .sequencer => s.seq == .reset1 || s.seq == .reset2
  | .write _ | .read | .byte => false

/-- The phase fits what it is part of, the sequencer's state and the counters (R141, R143). -/
def State.phaseFits (s : State) : Bool :=
  match s.ph with
  | .idle => s.use == .sequencer
  | .rstLow | .rstWait | .rstSample | .rstRec => s.inReset
  | .wrLow | .wrHigh => s.writes
  | .rdLow | .rdWait | .rdSample | .rdRem => s.reads
  | .pollGap => s.use == .sequencer && s.seq == .conversionWait

/-- The line mode fits the phase (R37, R143): at the tick level it is the phase's; at the symbol level the micro-operation that makes it so
may be the next one, in the three low phases and the three phases after them. -/
def State.modeFits (s : State) : Bool :=
  match s.ph with
  | .idle => true
  | .rstLow | .wrLow | .rdLow | .rstWait | .wrHigh | .rdWait => s.par.level == .symbol || s.dqOe == s.ph.drives
  | .rstSample | .rstRec | .rdSample | .rdRem | .pollGap => !s.dqOe

/-- The timer and the phase fit the level: `TMR` is the tick level's (R23), and the operation level knows no phases. -/
def State.levelFits (s : State) : Bool :=
  match s.par.level with
  | .operation => s.ph == .idle && s.tmr == 0
  | .symbol => s.tmr == 0
  | .tick => s.ph.timed || s.ph == .idle || s.tmr == 0

/-- What a sequencer state says of the rest: no reading since reset in `Idle`, the reading of the last transaction in `Committed` and
`Discarded` (R202, R211, R212), a finite limit in `TimedOut` (R113, R214), and fewer polls than the limit while waiting (R206). -/
def State.seqFits (s : State) : Bool :=
  match s.seq with
  | .idle | .discarded => !s.rsValid
  | .committed => s.rsValid && s.rsRaw == s.spRaw
  | .timedOut => s.par.pollLimit.isSome
  | .conversionWait =>
    match s.par.pollLimit with
    | none => true
    | some n => decide (s.pollcnt < n)
  | .reset1 | .selectAll1 | .startConversion | .reset2 | .selectAll2 | .readScratchpad | .validate | .aborted => true

/-- The invariant of the state: the counters in their ranges (R26, R28), an invalid Reading State with a raw value of zero (R30),
legal parameters (R6), and the phase, the line mode, the timer and the sequencer's state in accord. -/
def State.wf (s : State) : Bool :=
  decide (s.bitcnt.toNat ≤ 8) && decide (s.bytecnt.toNat ≤ 9) && s.reading.wf && s.par.wf
    && s.phaseFits && s.modeFits && s.levelFits && s.seqFits

/-- The line is released while no primitive runs (R37, R139, R143's last row). -/
def State.quiet (s : State) : Prop := s.ph = .idle → s.dqOe = false

/-! ## The transitions of the sequencer -/

/-- The Reading State did not change. -/
def SameReading (s t : State) : Prop := t.rsValid = s.rsValid ∧ t.rsRaw = s.rsRaw

/-- The presence sample that settles a reset state at this step: the one to be taken, or at `RST_REC` the one that read 0 (R135). -/
def State.presenceRead (s : State) : Bit :=
  match s.ph with
  | .rstRec => false
  | .rstSample => s.answer
  | .idle | .rstLow | .rstWait | .wrLow | .wrHigh | .rdLow | .rdWait | .rdSample | .rdRem | .pollGap => State.answer { s with dqOe := false, trace := s.trace ++ [.low 500, .rel 65] }

/-- The poll that settles `ConversionWait` at this step: the one to be taken, or at `RD_REM` the one taken (R137). -/
def State.pollRead (s : State) : Bit :=
  match s.ph with
  | .rdRem => s.rxbit
  | .idle | .rstLow | .rstWait | .rstSample | .rstRec | .wrLow | .wrHigh | .rdLow | .rdWait | .rdSample | .pollGap => State.answer { s with dqOe := false, trace := s.trace ++ [.low 3, .rel 10] }

/-- A row of R215's table, its condition among it, but for `rst`. -/
def Transition (s t : State) : Prop :=
  (t.seq = s.seq ∧ SameReading s t)
    ∨ (s.seq.resting = true ∧ fetch s = .asked (.host1 .start) ∧ t.seq = .reset1 ∧ SameReading s t)
    ∨ (s.seq = .reset1 ∧ t.seq = (if s.presenceRead then .aborted else .selectAll1) ∧ SameReading s t)
    ∨ (s.seq = .selectAll1 ∧ t.seq = .startConversion ∧ SameReading s t)
    ∨ (s.seq = .startConversion ∧ t.seq = .conversionWait ∧ SameReading s t)
    ∨ (s.seq = .conversionWait ∧ s.pollRead = true ∧ t.seq = .reset2 ∧ SameReading s t)
    ∨ (s.seq = .conversionWait ∧ s.pollRead = false ∧ s.par.pollLimit = some (s.pollcnt + 1) ∧ t.seq = .timedOut
        ∧ SameReading s t)
    ∨ (s.seq = .reset2 ∧ t.seq = (if s.presenceRead then .aborted else .selectAll2) ∧ SameReading s t)
    ∨ (s.seq = .selectAll2 ∧ t.seq = .readScratchpad ∧ SameReading s t)
    ∨ (s.seq = .readScratchpad ∧ t.seq = .validate ∧ SameReading s t)
    ∨ (s.seq = .validate ∧ computeCrc s.spMessage = s.spChecksum ∧ t.seq = .committed
        ∧ t.rsValid = true ∧ t.rsRaw = s.spRaw)
    ∨ (s.seq = .validate ∧ computeCrc s.spMessage ≠ s.spChecksum ∧ t.seq = .discarded
        ∧ t.rsValid = false ∧ t.rsRaw = 0)

end Sys2Proof.Machine
end

