-- ==== Sys2Proof/Certificates/Slice0/Obligations.lean ====
section
/-! DEFINITION. The statements for the provers. Each docstring names the rule or the section it formalises; "the model's choice"
names a log entry. -/

open Sys2Proof Sys2Proof.Machine

/-! ## Reset -/

/-- R40: the state after reset and the outputs that follow from it. (`SP` is unspecified there and is not mentioned.) -/
def Obligations.ResetStateHoldsTheSpecsValues : Prop :=
  let s := State.reset
  s.rsValid = false ∧ s.rsRaw = 0 ∧ s.seq = .idle ∧ s.dqOe = false ∧ s.ph = .idle ∧ s.tmr = 0 ∧
  s.shr = 0 ∧ s.bitcnt = 0 ∧ s.bytecnt = 0 ∧ s.crc = 0 ∧ s.pollcnt = 0 ∧ s.pres = false ∧ s.rxbit = false ∧
  s.trace = [] ∧ s.outputs = ⟨false, false, 0, false, 0, false, 0⟩

/-- R311: the operation RESET, from any state, busy or not: every element at its value of R40, the parameters not affected, `LATEST`
invalid, and `ACQUIRE` accepted. -/
def Obligations.ResetOperationRestoresTheResetValues : Prop :=
  ∀ s : State, ∃ t : State, exec .reset s = .next t ∧
    t.rsValid = false ∧ t.rsRaw = 0 ∧ t.seq = .idle ∧ t.dqOe = false ∧ t.ph = .idle ∧ t.tmr = 0 ∧
    t.shr = 0 ∧ t.bitcnt = 0 ∧ t.bytecnt = 0 ∧ t.crc = 0 ∧ t.pollcnt = 0 ∧ t.pres = false ∧ t.rxbit = false ∧
    t.trace = [] ∧ t.par = s.par ∧ latest t = .invalid ∧
    exec .acquire t = .next { t with seq := .reset1, res := .none }

/-- `70_reset_and_hazards.md` section 1, U1 and U11: what RESET leaves open. The bytes of `SP` are free values, and after a reset while
busy no planned answer of the device stands (the model's choices, logs 10, 11, 12, 23, 28). -/
def Obligations.ResetLeavesScratchpadAndDeviceOpen : Prop :=
  ∀ s : State, ∃ t : State, exec .reset s = .next t ∧
    (∀ k : Fin 9, t.sp[k.val] = Config.freeSp s.resets k.val) ∧
    t.resets = s.resets + 1 ∧ t.host = s.host ∧ t.bench = s.bench ∧ t.use = .sequencer ∧ t.res = .none ∧
    t.dqIn = if s.busy then [] else s.dqIn

/-! ## Fetching and decoding -/

/-- A step runs the host's command whenever it comes (R8, R108, R255, R311), and a bench's call when nothing is in progress (the model's
test bench, log 28): as a whole at the operation level (log 5), else its first micro-operation or its first phase. -/
def Obligations.StepRunsTheOperationAskedFor : Prop :=
  (∀ (s : State) (a : HostCommand) (rest : List (Option HostCommand)) (i : Instr),
    s.host = some a :: rest → decode a.code = .ok i → step s = exec i { s with host := rest }) ∧
  (∀ (s : State) (c : Code) (rest : List Code) (i : Instr),
    HostIdle s → s.bench = c :: rest → callable c = true → s.free = true → decode c = .ok i →
    step s = runCall i { s with host := s.host.tail, bench := rest } ∧
    (s.par.level = .operation → step s = exec i { s with host := s.host.tail, bench := rest }))

/-- R141, R216, R318: while a transaction, a primitive or a delay is in progress no call changes anything, it waits; and while a
transaction is in progress `start` is ignored (R111) and `LATEST` only returns its value (R255; where a returned value goes is the
model's choice, log 12). -/
def Obligations.StepLetsAPrimitiveFinish : Prop :=
  (∀ (s t : State) (calls : List Code), s.free = false → step { s with bench := [] } = .next t →
    step { s with bench := calls } = .next { t with bench := calls }) ∧
  (∀ (s : State) (rest : List (Option HostCommand)), s.busy = true →
    step { s with host := some .start :: rest } = .next { s with host := rest, res := .none } ∧
    step { s with host := some .latest :: rest } = .next { s with host := rest, res := .temperature (latest s) })

/-- With nothing asked for, a step at the operation level runs the body of the state `SEQ` holds, whose row its code decodes to (log 5); at
the symbol level it is a step of the block's micro-operations, and at the tick level a tick (R9, R21, R107; log 6). -/
def Obligations.StepRunsTheSequencerState : Prop :=
  ∀ s : State, HostIdle s → (s.bench = [] ∨ s.free = false) →
    (∃ i, decode (.seq4 s.seq.code) = .ok i ∧
      (s.par.level = .operation → s.ph = .idle → step s = exec i { s with host := s.host.tail })) ∧
    (s.par.level = .symbol → step s = .next (symbolStep { s with host := s.host.tail })) ∧
    (s.par.level = .tick → step s = .next (tick { s with host := s.host.tail }))

/-- R9 (a): a step at the symbol level is at most one micro-operation. It appends at most one event; a step that appends one is a `DELAY`
in the line mode there was, or a `SAMPLE` of the released line, and leaves the line mode alone. -/
def Obligations.SymbolStepIsOneMicroOperation : Prop :=
  ∀ s t : State, s.wf = true → s.par.level = .symbol → fetch s ≠ .asked (.host1 .rst) → step s = .next t →
    t.trace = s.trace ∨
    (t.dqOe = s.dqOe ∧ ∃ n, t.trace = s.trace ++ [if s.dqOe then .low n else .rel n]) ∨
    (s.dqOe = false ∧ t.dqOe = false ∧ t.trace = s.trace ++ [.smp s.answer])

/-- A call of a code that is no operation's is refused by name (R110, R113; logs 17, 28). -/
def Obligations.StepRefusesWhatIsNoOperation : Prop :=
  ∀ (s : State) (c : Code) (rest : List Code) (e : DecodeError),
    HostIdle s → s.bench = c :: rest → callable c = true → s.free = true → decode c = .error e →
    step s = .refused (.undecodable e)

/-- A number of the opcode table placed by `withFetchWord` is what the next step runs, as a whole, in a state that differs from the given
one only in where the fetch looks (logs 2, 4, 28). -/
def Obligations.PlacedTableWordRunsNext : Prop :=
  ∀ (s : State) (nbits w : Nat) (i : Instr), decodeTableWord nbits w = some i →
    ∃ t : State, step (s.withFetchWord nbits w) = exec i t ∧
      t = { s with
        seq := t.seq, ph := .idle, tmr := 0, use := .sequencer, par := { s.par with level := .operation }, bench := t.bench } ∧
      (i.format = .cmd8 → t.bench = s.bench ∧ (s.busy = false → t.seq = s.seq)) ∧
      (i.format = .seq4 → decode (.seq4 t.seq.code) = .ok i)

/-- Encodings written out from `30_encoding.md` decode to the operation they stand for, and every number of the opcode table that has
one names its row (R97, R107; log 4). -/
def Obligations.WrittenOutEncodingsDecode : Prop :=
  decode (.calls [.setLineMode .output, .writeLine false]) = .ok .driveLow ∧
  decode (.wave [.L 500, .Z 65, .S, .optZ 435]) = .ok .resetDetect ∧
  decode (.wave [.L 5, .Z 60]) = .ok .w1 ∧
  decode (.wave [.L 60, .Z 5]) = .ok .w0 ∧
  decode (.wave [.L 3, .Z 10, .S, .Z 52]) = .ok .readBit ∧
  decode (.frame [.L 5, .Z 60, .L 60, .Z 5, .L 60, .Z 5, .L 60, .Z 5, .L 60, .Z 5, .L 60, .Z 5, .L 60, .Z 5, .L 60, .Z 5])
    = .ok (.txByte 0x01) ∧
  decode (.func (.crcStep [0x00, 0x50])) = .ok (.crcStep 0x00 0x50) ∧ decode (.host1 .start) = .ok .acquire ∧
  decodeTableWord 8 0xCC = some .selectAll ∧ decodeTableWord 8 0x44 = some .convert ∧
  decodeTableWord 8 0xBE = some .readSp ∧ decodeTableWord 8 0 = some .seqIdle ∧
  decodeTableWord 8 1 = some .seqReset1 ∧ decodeTableWord 8 2 = some .seqSelectAll1 ∧
  decodeTableWord 8 3 = some .seqStartConversion ∧ decodeTableWord 8 4 = some .seqConversionWait ∧
  decodeTableWord 8 5 = some .seqReset2 ∧ decodeTableWord 8 6 = some .seqSelectAll2 ∧
  decodeTableWord 8 7 = some .seqReadScratchpad ∧ decodeTableWord 8 8 = some .seqValidate ∧
  decodeTableWord 8 9 = some .seqCommitted ∧ decodeTableWord 8 10 = some .seqDiscarded ∧
  decodeTableWord 8 11 = some .seqAborted ∧ decodeTableWord 8 12 = some .seqTimedOut

/-- The encoding is lossless (R90 to R119): every operation, with every operand, is decoded again from its encoding. -/
def Obligations.DecodeAfterEncodeIsTheOperation : Prop :=
  ∀ i : Instr, i.wf = true → decode (encode i) = .ok i

/-- The decoder takes nothing but encodings: what it accepts is well-formed and is that operation's one encoding. That each operation has
one encoding is the model's choice where R117 gives no order to the two calls of `DRIVE_LOW` (log 24) and where R116 gives no bits
(log 3). -/
def Obligations.OnlyEncodingsDecode : Prop :=
  ∀ (c : Code) (i : Instr), decode c = .ok i → i.wf = true ∧ encode i = c

/-- `30_encoding.md` section 6: only the three command bytes, and only the codes 0 to 12 of `SEQ`, are operations; the codes are
different for different states. -/
def Obligations.UnusedEncodingsAreRejected : Prop :=
  (∀ b : Byte, (∃ i, decode (.cmd8 b) = .ok i) ↔ b = 0xCC#8 ∨ b = 0x44#8 ∨ b = 0xBE#8) ∧
  (∀ c : BitVec 4, (∃ i, decode (.seq4 c) = .ok i) ↔ c.toNat ≤ 12) ∧
  (∀ p q : SeqState, p.code = q.code → p = q)

/-! ## Micro-operations -/

/-- R130, R131: the line mode, and nothing else. -/
def Obligations.DriveLowAndReleaseSetTheLineMode : Prop :=
  ∀ s : State,
    exec .driveLow s = .next { s with dqOe := true, res := .none } ∧
    exec .release s = .next { s with dqOe := false, res := .none }

/-- `40_bus_primitives.md` section 1, R132: at the symbol level the event, by the line mode. At the tick level `TMR` <- `n`, and it counts down
by 1 each microsecond while nothing else changes, for a delay called by itself and for the delay of a phase. That the event is appended
when the countdown starts is the model's choice (log 19). -/
def Obligations.DelayIsAnEventAndACountdown : Prop :=
  (∀ (n : Nat) (s : State),
    exec (.delay n) s = .next { s with
      trace := s.trace ++ [if s.dqOe then .low n else .rel n], res := .none }) ∧
  (∀ (n k : Nat) (s : State), s.par.level = .tick → k ≤ n →
    let t : State := { s with trace := s.trace ++ [if s.dqOe then .low n else .rel n], tmr := n, res := .none }
    runCall (.delay n) s = .next t ∧ ticks k t = { t with tmr := n - k } ∧ elapsed k t = k) ∧
  (∀ (k : Nat) (s : State), s.ph.timed = true → k ≤ s.phaseTime →
    let t : State := { s with
      dqOe := s.ph.drives, tmr := s.phaseTime
      trace := s.trace ++ [if s.ph.drives then .low s.phaseTime else .rel s.phaseTime] }
    enterPhase s = t ∧ ticks k t = { t with tmr := s.phaseTime - k } ∧ elapsed k t = k)

/-- `40_bus_primitives.md` section 1: with the line released a sample reads the oracle's answer to the trace (the planned answers before
it are the model's form of the oracle, log 7); with the line driven it has no meaning and is refused (U4; log 16). -/
def Obligations.SampleReadsTheReleasedLine : Prop :=
  ∀ s : State,
    (s.dqOe = false → exec .sample s = .next { s with
      trace := s.trace ++ [.smp s.answer], dqIn := s.dqIn.tail, res := .bit s.answer }) ∧
    (s.dqOe = true → exec .sample s = .refused .sampleWhileDriving) ∧
    (s.dqIn = [] → s.answer = Config.envSample s.resets s.trace) ∧
    (∀ b rest, s.dqIn = b :: rest → s.answer = b)

/-! ## Line symbols -/

/-- R135: `RESET_DETECT`, both ways the presence sample can read, with every effect. -/
def Obligations.ResetDetectFindsPresenceOrFails : Prop :=
  ∀ s : State,
    let u : State := { s with dqOe := false, trace := s.trace ++ [.low 500, .rel 65] }
    (u.answer = true → exec .resetDetect s = .next { u with
      trace := u.trace ++ [.smp true], dqIn := s.dqIn.tail, pres := false,
      res := .presence .presenceFailure }) ∧
    (u.answer = false → exec .resetDetect s = .next { u with
      trace := u.trace ++ [.smp false, .rel 435], dqIn := s.dqIn.tail, pres := true,
      res := .presence .success })

/-- R136: the low time is the data. -/
def Obligations.WriteSlotCarriesTheBitInItsLowTime : Prop :=
  ∀ s : State,
    exec .w1 s = .next { s with dqOe := false, trace := s.trace ++ [.low 5, .rel 60], res := .none } ∧
    exec .w0 s = .next { s with dqOe := false, trace := s.trace ++ [.low 60, .rel 5], res := .none }

/-- R137: the bit is the level 13 µs into the slot, and the slot goes on to its end whatever it is. -/
def Obligations.ReadSlotSamplesThirteenMicrosecondsIn : Prop :=
  ∀ s : State,
    let u : State := { s with dqOe := false, trace := s.trace ++ [.low 3, .rel 10] }
    exec .readBit s = .next { u with
      trace := u.trace ++ [.smp u.answer, .rel 52], dqIn := s.dqIn.tail, rxbit := u.answer,
      res := .bit u.answer }

/-- `40_bus_primitives.md` section 3 and R163: the time that the symbols and the bytes add to the trace. -/
def Obligations.SymbolsAndBytesLastTheirTime : Prop :=
  (∀ s t : State, exec .resetDetect s = .next t →
    duration t.trace = duration s.trace + (if t.res = .presence .success then 1000 else 565)) ∧
  (∀ s t : State, (exec .w1 s = .next t ∨ exec .w0 s = .next t ∨ exec .readBit s = .next t) →
    duration t.trace = duration s.trace + 65) ∧
  (∀ (b : Byte) (s t : State),
    (exec (.txByte b) s = .next t ∨ exec .rxByte s = .next t ∨ exec .selectAll s = .next t ∨ exec .convert s = .next t ∨
      exec .readSp s = .next t) →
    duration t.trace = duration s.trace + 520)

/-- R37, R139, R314 for every operation above the micro-operations: the trace grows by pulses each of which is followed by a
released wait, no sample is taken while the line is driven, and where anything was done on the line it ends released. -/
def Obligations.OperationsReleaseTheLine : Prop :=
  ∀ (i : Instr) (s t : State), i.format ≠ .micro → i ≠ .reset → exec i s = .next t →
    ∃ events, t.trace = s.trace ++ events ∧ lowsReleased events = true ∧
      (events = [] → t.dqOe = s.dqOe) ∧ (events ≠ [] → t.dqOe = false)

/-! ## Bytes -/

/-- R160: eight write slots, bit 0 first, and `SHR` = 0 after. -/
def Obligations.SentByteGoesLeastSignificantBitFirst : Prop :=
  ∀ (b : Byte) (s : State),
    exec (.txByte b) s = .next { s with
      dqOe := false, shr := 0, bitcnt := 8, res := .none
      trace := s.trace ++ (List.range 8).flatMap fun k => writeSlotEvents (b.getLsbD k) }

/-- R161: eight read slots; the k-th sample is bit k of the byte, whatever the device answers. -/
def Obligations.ReceivedByteComesLeastSignificantBitFirst : Prop :=
  ∀ s : State, ∃ b : Byte,
    (∀ k x, k < 8 → s.dqIn[k]? = some x → b.getLsbD k = x) ∧
    exec .rxByte s = .next { s with
      dqOe := false, shr := b, bitcnt := 8, rxbit := b.getLsbD 7, dqIn := s.dqIn.drop 8, res := .byte b
      trace := s.trace ++ (List.range 8).flatMap fun k => readSlotEvents (b.getLsbD k) }

/-- R98: the slots of the three command bytes, with every effect of the bus commands. -/
def Obligations.BusCommandsSendTheirSlots : Prop :=
  ∀ s : State,
    exec .selectAll s = .next { s with
      dqOe := false, shr := 0, bitcnt := 8, res := .none
      trace := s.trace ++ [.low 60, .rel 5, .low 60, .rel 5, .low 5, .rel 60, .low 5, .rel 60,
        .low 60, .rel 5, .low 60, .rel 5, .low 5, .rel 60, .low 5, .rel 60] } ∧
    exec .convert s = .next { s with
      dqOe := false, shr := 0, bitcnt := 8, res := .none
      trace := s.trace ++ [.low 60, .rel 5, .low 60, .rel 5, .low 5, .rel 60, .low 60, .rel 5,
        .low 60, .rel 5, .low 60, .rel 5, .low 5, .rel 60, .low 60, .rel 5] } ∧
    exec .readSp s = .next { s with
      dqOe := false, shr := 0, bitcnt := 8, res := .none
      trace := s.trace ++ [.low 60, .rel 5, .low 5, .rel 60, .low 5, .rel 60, .low 5, .rel 60,
        .low 5, .rel 60, .low 5, .rel 60, .low 60, .rel 5, .low 5, .rel 60] }

/-- R162: over the loopback line of `95_test_vectors.md` section 4.1 a byte sent is received again, whatever its bits. -/
def Obligations.LoopbackReturnsTheByteSent : Prop :=
  ∀ (b : Byte) (s t u : State), s.trace = [] → exec (.txByte b) s = .next t → exec .rxByte t = .next u →
    follows envLoop t.trace (u.trace.drop t.trace.length) = true →
    u.res = .byte b ∧ u.shr = b

/-! ## The checksum -/

/-- R181: the table `Rom` is the one the generator gives. -/
def Obligations.RomIsTheGeneratedTable : Prop :=
  ∀ i : Byte, rom i = Nat.repeat (fun c => if c.getLsbD 0 then (c >>> 1) ^^^ 0x8C#8 else c >>> 1) 8 i

/-- `42_crc.md` section 1: the table is linear over exclusive-or and a permutation. -/
def Obligations.RomIsLinearAndAPermutation : Prop :=
  (∀ a b : Byte, rom (a ^^^ b) = rom a ^^^ rom b) ∧ Function.Bijective rom

/-- `42_crc.md` section 2: `CRC_STEP` returns `Rom(c ^ b)`; alone it writes no state (the model's reading, log 15). -/
def Obligations.CrcStepReturnsTheTableEntry : Prop :=
  ∀ (c b : Byte) (s : State), exec (.crcStep c b) s = .next { s with res := .byte (rom (c ^^^ b)) }

/-- R184: `COMPUTE_CRC` folds `CRC_STEP` from 0, returns the value and writes `CRC`; the corner cases and the worked example. -/
def Obligations.ComputeCrcFoldsTheTable : Prop :=
  (∀ (m : List Byte) (s : State),
    exec (.computeCrc m) s = .next { s with crc := computeCrc m, res := .byte (computeCrc m) }) ∧
  computeCrc [] = 0 ∧
  (∀ (m : List Byte) (b : Byte), computeCrc (m ++ [b]) = rom (computeCrc m ^^^ b)) ∧
  (∀ n : Nat, computeCrc (List.replicate n 0) = 0) ∧
  computeCrc [0x01, 0x02] ≠ computeCrc [0x02, 0x01] ∧
  computeCrc [0x50, 0x05, 0x4B, 0x46, 0x7F, 0xFF, 0x0C, 0x10] = 0x1C

/-- `42_crc.md` section 3 (a): the checksum is linear. -/
def Obligations.ChecksumIsLinear : Prop :=
  ∀ x y : List Byte, x.length = y.length →
    computeCrc (List.zipWith (· ^^^ ·) x y) = computeCrc x ^^^ computeCrc y

/-- `42_crc.md` section 3 (b), (d): a message with its own checksum leaves 0, and of the 256 last bytes only that one does. -/
def Obligations.ChecksumSelfCheckPassesOneByteIn256 : Prop :=
  ∀ (m : List Byte) (b : Byte), computeCrc (m ++ [b]) = 0 ↔ b = computeCrc m

/-- `42_crc.md` section 3 (c): nine bytes that pass do not pass with an error confined to 8 consecutive bits (in the order of the
line), a single-bit error among them. -/
def Obligations.ChecksumDetectsShortBursts : Prop :=
  ∀ (m : List Byte) (v : Byte) (k : Nat), m.length = 9 → computeCrc m = 0 → v ≠ 0 → k ≤ 64 →
    computeCrc (List.zipWith (· ^^^ ·) m
      ((List.range 9).map fun j => ((v.setWidth 72 <<< k).extractLsb' (8 * j) 8 : Byte))) ≠ 0

/-- `42_crc.md` section 3, R188: the register fed bit by bit, bit 0 first, gives the table's value. -/
def Obligations.BitSerialChecksumIsTheTables : Prop :=
  ∀ c b : Byte, crcSerialByte c b = crcStep c b

/-! ## The decoder -/

/-- R250: the two's complement reading of all sixteen bits, in sixteenths of a degree; no state but the returned value. -/
def Obligations.DecodeIsTwosComplementSixteenths : Prop :=
  (∀ (r : Reading) (s : State), exec (.decode r) s = .next { s with
    res := .temperature (if r.valid then .sixteenths r.raw.toInt else .invalid) }) ∧
  (∀ n : Int, degrees (.sixteenths n) = some ((n : Rat) / 16)) ∧ degrees .invalid = none ∧
  degrees (decodeReading ⟨true, 0x0191⟩) = some 25.0625 ∧
  degrees (decodeReading ⟨true, 0xFF5E⟩) = some (-10.125)

/-- R252: `DECODE` is total, its table of corner cases, and for values whose bits 15:11 are all equal any width from 12 to 15 gives
the same. -/
def Obligations.DecodeCornerCases : Prop :=
  (∀ raw : Raw, decodeReading ⟨true, raw⟩ = .sixteenths raw.toInt) ∧
  ([(0x0000, 0), (0x0001, 1), (0x0191, 401), (0x07FF, 2047), (0x0800, 2048), (0x7FFF, 32767),
    (0x8000, -32768), (0xF800, -2048), (0xFF5E, -162), (0xFFFF, -1)] : List (Raw × Int)).all
      (fun p => decodeReading ⟨true, p.1⟩ == .sixteenths p.2) = true ∧
  (∀ (raw : Raw) (w : Nat), 12 ≤ w → w ≤ 15 →
    (raw.extractLsb' 11 5 = 0#5 ∨ raw.extractLsb' 11 5 = 0x1F#5) → (raw.setWidth w).toInt = raw.toInt)

/-- R254: `LATEST` is the decode of the Reading State and has no side effect. -/
def Obligations.LatestDecodesTheReadingState : Prop :=
  ∀ s : State, exec .latest s = .next { s with
    res := .temperature (if s.rsValid then .sixteenths s.rsRaw.toInt else .invalid) }

/-- R36, R107, R253: every output as a function of state, the codes of `status` written out; `temp_q4` counts the sixteenths `LATEST` gives,
and is 0 when there is none. -/
def Obligations.OutputsAreFunctionsOfState : Prop :=
  ∀ s : State,
    s.outputs.dqOe = s.dqOe ∧
    s.outputs.status = (match s.seq with
      | .idle => 0 | .reset1 => 1 | .selectAll1 => 2 | .startConversion => 3 | .conversionWait => 4 | .reset2 => 5
      | .selectAll2 => 6 | .readScratchpad => 7 | .validate => 8 | .committed => 9 | .discarded => 10 | .aborted => 11
      | .timedOut => 12) ∧
    (s.outputs.busy = false ↔ s.seq = .idle ∨ s.seq = .committed ∨ s.seq = .discarded ∨ s.seq = .aborted ∨ s.seq = .timedOut) ∧
    s.outputs.readingValid = s.rsValid ∧ s.outputs.readingRaw = s.rsRaw ∧
    s.outputs.tempValid = s.rsValid ∧ s.outputs.tempQ4 = s.rsRaw ∧
    (∀ n : Int, latest s = .sixteenths n ↔ s.outputs.tempValid = true ∧ s.outputs.tempQ4.toInt = n) ∧
    (s.wf = true → s.outputs.tempValid = false → s.outputs.tempQ4 = 0 ∧ s.outputs.readingRaw = 0)

/-! ## Host commands -/

/-- R111 and `43_sequencer.md` section 1: `start` while busy is ignored, it starts nothing, queues nothing and changes no state; in a resting
state, whichever it is, `ACQUIRE` goes to `Reset1` and changes nothing else. -/
def Obligations.AcquireStartsAtRestAndIsIgnoredWhileBusy : Prop :=
  ∀ s : State,
    (s.busy = true → exec .acquire s = .next { s with res := .none }) ∧
    ((s.seq = .idle ∨ s.seq = .committed ∨ s.seq = .discarded ∨ s.seq = .aborted ∨ s.seq = .timedOut) →
      exec .acquire s = .next { s with seq := .reset1, res := .none })

/-! ## The sequencer's states -/

/-- `43_sequencer.md` section 2: without `ACQUIRE` a resting state stays and nothing changes. The rows write nothing, so that no resting state
is entered by its own row (R113, R202, R211 to R214). -/
def Obligations.RestingStatesStay : Prop :=
  ∀ s : State,
    exec .seqIdle s = .next s ∧ exec .seqCommitted s = .next s ∧ exec .seqDiscarded s = .next s ∧
    exec .seqAborted s = .next s ∧ exec .seqTimedOut s = .next s

/-- R203, R207: presence leads on, failure aborts with nothing transmitted after the reset frame and the Reading State unchanged. -/
def Obligations.ResetStatesGoOnOrAbort : Prop :=
  ∀ s : State,
    let u : State := { s with dqOe := false, trace := s.trace ++ [.low 500, .rel 65] }
    (u.answer = true →
      let t : State := { u with
        trace := u.trace ++ [.smp true], dqIn := s.dqIn.tail, pres := false, seq := .aborted }
      exec .seqReset1 s = .next t ∧ exec .seqReset2 s = .next t) ∧
    (u.answer = false →
      let t : State := { u with trace := u.trace ++ [.smp false, .rel 435], dqIn := s.dqIn.tail, pres := true }
      exec .seqReset1 s = .next { t with seq := .selectAll1 } ∧
      exec .seqReset2 s = .next { t with seq := .selectAll2 })

/-- R204, R208: the select command, then the named successor. -/
def Obligations.SelectStatesSendSelectAll : Prop :=
  ∀ s : State,
    let t : State := { s with dqOe := false, shr := 0, bitcnt := 8, trace := s.trace ++ sentByteEvents 0xCC }
    exec .seqSelectAll1 s = .next { t with seq := .startConversion } ∧
    exec .seqSelectAll2 s = .next { t with seq := .readScratchpad }

/-- `43_sequencer.md` section 1: the convert command, then `ConversionWait`, entered with `POLLCNT` = 0 (where it is cleared is the
model's reading of R34 and R206, log 13). -/
def Obligations.StartConversionSendsConvert : Prop :=
  ∀ s : State, exec .seqStartConversion s = .next { s with
    dqOe := false, shr := 0, bitcnt := 8, trace := s.trace ++ sentByteEvents 0x44,
    seq := .conversionWait, pollcnt := 0 }

/-- `43_sequencer.md` section 1: one poll of `ConversionWait` (one poll a step is the model's choice, log 5): a 1 leaves; the last
allowed 0 times out; any other 0 waits `T_POLL` and stays. -/
def Obligations.ConversionWaitPollsOnce : Prop :=
  ∀ s : State, s.seq = .conversionWait →
    let u : State := { s with dqOe := false, trace := s.trace ++ [.low 3, .rel 10] }
    let t : State := { u with
      trace := u.trace ++ [.smp u.answer, .rel 52], dqIn := s.dqIn.tail, rxbit := u.answer,
      pollcnt := s.pollcnt + 1 }
    (u.answer = true → exec .seqConversionWait s = .next { t with seq := .reset2 }) ∧
    (u.answer = false → s.par.pollLimit = some (s.pollcnt + 1) →
      exec .seqConversionWait s = .next { t with seq := .timedOut }) ∧
    (u.answer = false → s.par.pollLimit ≠ some (s.pollcnt + 1) →
      exec .seqConversionWait s = .next { t with trace := t.trace ++ [.rel s.par.tPoll] })

/-- R209: the read-scratchpad command, then nine bytes into `SP`, each bit the answer in its place, whatever the device answers. -/
def Obligations.ReadScratchpadFillsTheNineBytes : Prop :=
  ∀ s : State, ∃ m : Vector Byte 9,
    (∀ k x, k < 72 → s.dqIn[k]? = some x → (m.toList.getD (k / 8) 0).getLsbD (k % 8) = x) ∧
    exec .seqReadScratchpad s = .next { s with
      dqOe := false, shr := m[8], bitcnt := 8, bytecnt := 9, sp := m, rxbit := m[8].getLsbD 7,
      dqIn := s.dqIn.drop 72, seq := .validate
      trace := s.trace ++ sentByteEvents 0xBE ++ m.toList.flatMap receivedByteEvents }

/-- R210: the checksum over bytes 0 to 7 against byte 8; the Reading State and `SEQ` change together; no line activity. -/
def Obligations.ValidateCommitsOrDiscards : Prop :=
  ∀ s : State,
    let c := computeCrc [s.sp[0], s.sp[1], s.sp[2], s.sp[3], s.sp[4], s.sp[5], s.sp[6], s.sp[7]]
    (c = s.sp[8] → exec .seqValidate s = .next { s with
      crc := c, rsValid := true, rsRaw := s.sp[1] ++ s.sp[0], seq := .committed }) ∧
    (c ≠ s.sp[8] → exec .seqValidate s = .next { s with
      crc := c, rsValid := false, rsRaw := 0, seq := .discarded })

/-- R271, R272, R273: raising a failure is exactly this change of state. -/
def Obligations.FailuresAreExactlyTheseChanges : Prop :=
  ∀ s : State,
    raiseFailure .presenceFailure s = { s with pres := false, seq := .aborted, dqOe := false } ∧
    raiseFailure .checksumMismatch s = { s with rsValid := false, rsRaw := 0, seq := .discarded } ∧
    raiseFailure .conversionTimeout s = { s with seq := .timedOut, dqOe := false }

/-! ## Whole-machine rules -/

/-- R274: no operation stops the block. Every one of them answers a next state; `SAMPLE` needs the line released. -/
def Obligations.EveryOperationCompletes : Prop :=
  ∀ (i : Instr) (s : State), (i = .sample → s.dqOe = false) → ∃ t, exec i s = .next t

/-- The state after reset meets the invariant. -/
def Obligations.InvariantHoldsAtReset : Prop := State.reset.wf = true

/-- R26, R28, R30, R6, R37, R113, R141, R143, R202, R211, R212: every step, at any level and whatever is asked for, keeps the counters in their
ranges, an invalid Reading State at zero, the parameters legal, the phase, the line mode, the timer and `SEQ` in accord; and the line is
released while no primitive runs (R139, R143's last row), unless a bench calls `DRIVE_LOW` by itself. -/
def Obligations.EveryStepKeepsTheInvariant : Prop :=
  ∀ s t : State, s.wf = true → step s = .next t →
    t.wf = true ∧
    (s.quiet → (∀ c, fetch s = .called c → decode c ≠ .ok .driveLow) → t.quiet)

/-- R7: no parameter changes at run time. -/
def Obligations.ParametersNeverChange : Prop :=
  ∀ s t : State, step s = .next t → t.par = s.par

/-- `10_state.md` section 6: the Reading State is written only by `Validate` (and by reset), at any level. -/
def Obligations.OnlyValidateWritesTheReading : Prop :=
  (∀ (i : Instr) (s t : State), exec i s = .next t → i ≠ .seqValidate → i ≠ .reset → SameReading s t) ∧
  (∀ s : State, s.seq ≠ .validate → SameReading s (symbolStep s) ∧ SameReading s (tick s))

/-- `43_sequencer.md` section 2: every transition of the machine is a row of R215's table under the row's condition, at any level and whatever
is called: `Reset1` from a resting state only by `start`, abort or go on by the presence sample, leave the wait by a poll that read 1 or at
the limit (R319), commit or discard by the checksum; `rst` leads to `Idle` with an invalid Reading State from any state. -/
def Obligations.EveryTransitionIsInTheTable : Prop :=
  ∀ s t : State, s.wf = true → step s = .next t →
    (fetch s ≠ .asked (.host1 .rst) → Transition s t) ∧
    (fetch s = .asked (.host1 .rst) → t.seq = .idle ∧ t.rsValid = false ∧ t.rsRaw = 0)

/-- `20_memory.md` section 2, R66: with no answers planned, every sample of every operation reads what the oracle answers to the whole
trace before it. -/
def Obligations.EverySampleReadsTheOracle : Prop :=
  ∀ (i : Instr) (s t : State), s.dqIn = [] → i ≠ .reset → exec i s = .next t →
    ∃ events, t.trace = s.trace ++ events ∧ follows (Config.envSample s.resets) s.trace events = true

/-- `44_decoder.md` section 2, R255: what `LATEST` (or any function) returned disturbs no transaction, during any primitive and any delay: the
rows of the sequencer, and every step of the block at either level of R9 with no call in progress, neither read nor write it. -/
def Obligations.ReturnedValueDisturbsNoTransaction : Prop :=
  (∀ (i : Instr) (s t : State) (r : Result), i.format = .seq4 → exec i s = .next t →
    exec i { s with res := r } = .next { t with res := r }) ∧
  (∀ (s : State) (r : Result), s.use = .sequencer →
    symbolStep { s with res := r } = { symbolStep s with res := r } ∧ tick { s with res := r } = { tick s with res := r })

/-- R218, R219, R220 for a transaction that reaches `Validate`, from any resting state, with any number `k` of polls that read 0, any
poll delay and any nine bytes: the line symbols in order, the time, and `Committed` or `Discarded` by the checksum. -/
def Obligations.TransactionCommitsOrDiscards : Prop :=
  ∀ (s : State) (m : Vector Byte 9) (k : Nat) (rest : List Bit),
    StartsTransaction s → (∀ limit, s.par.pollLimit = some limit → k < limit) →
    s.dqIn = false :: (List.replicate k false ++ true :: false :: (m.toList.flatMap bitsOf ++ rest)) →
    ∃ t : State, runSteps (k + 9) s = .next t ∧
      t.trace = s.trace ++ convertEvents ++ failedPollEvents k s.par.tPoll ++ readSlotEvents true ++ readEvents m.toList ∧
      duration t.trace = duration s.trace + 8760 + 65 * (k + 1) + s.par.tPoll * k ∧
      t.sp = m ∧ t.pres = true ∧ t.dqOe = false ∧ t.pollcnt = k + 1 ∧ t.dqIn = rest ∧
      (computeCrc (m.toList.take 8) = m[8] →
        t.seq = .committed ∧ t.rsValid = true ∧ t.rsRaw = m[1] ++ m[0]) ∧
      (computeCrc (m.toList.take 8) ≠ m[8] →
        t.seq = .discarded ∧ t.rsValid = false ∧ t.rsRaw = 0)

/-- R213, R220, R222: no presence at the first reset, or at the second after any number of polls, ends in `Aborted` with the Reading
State and `SP` as they were, after the reset frame's 565 µs. -/
def Obligations.TransactionAbortsWithoutPresence : Prop :=
  ∀ (s : State) (k : Nat) (rest : List Bit),
    StartsTransaction s → (∀ limit, s.par.pollLimit = some limit → k < limit) →
    (s.dqIn = true :: rest →
      ∃ t : State, runSteps 2 s = .next t ∧ t.seq = .aborted ∧ SameReading s t ∧ t.sp = s.sp ∧ t.pres = false ∧
        t.dqOe = false ∧ t.trace = s.trace ++ resetEvents true ∧ duration t.trace = duration s.trace + 565) ∧
    (s.dqIn = false :: (List.replicate k false ++ true :: true :: rest) →
      ∃ t : State, runSteps (k + 6) s = .next t ∧ t.seq = .aborted ∧ SameReading s t ∧ t.sp = s.sp ∧ t.pres = false ∧
        t.dqOe = false ∧
        t.trace = s.trace ++ convertEvents ++ failedPollEvents k s.par.tPoll ++ readSlotEvents true ++ resetEvents true ∧
        duration t.trace = duration s.trace + 2605 + 65 * (k + 1) + s.par.tPoll * k)

/-- R214, R220, R222: with `POLL_LIMIT` = `n + 1`, polls that all read 0 end in `TimedOut`, no delay after the last, the Reading State
and `SP` as they were. -/
def Obligations.TransactionTimesOutAtThePollLimit : Prop :=
  ∀ (s : State) (n : Nat) (rest : List Bit),
    StartsTransaction s → s.par.pollLimit = some (n + 1) → s.dqIn = false :: (List.replicate (n + 1) false ++ rest) →
    ∃ t : State, runSteps (n + 5) s = .next t ∧ t.seq = .timedOut ∧ SameReading s t ∧ t.sp = s.sp ∧ t.pres = true ∧
      t.dqOe = false ∧ t.pollcnt = n + 1 ∧
      t.trace = s.trace ++ convertEvents ++ failedPollEvents n s.par.tPoll ++ readSlotEvents false ∧
      duration t.trace = duration s.trace + 2040 + 65 * (n + 1) + s.par.tPoll * n

/-- R319: with `POLL_LIMIT` = INF a device that keeps the line low keeps the sequencer in `ConversionWait`, for as many polls as one
likes: busy, the Reading State unchanged, no silent exit. -/
def Obligations.StuckDeviceStallsTheSequencer : Prop :=
  ∀ (s : State) (n : Nat) (rest : List Bit),
    RunsAlone s → s.seq = .conversionWait → s.par.pollLimit = none → s.dqIn = List.replicate n false ++ rest →
    ∃ t : State, runSteps n s = .next t ∧ t.seq = .conversionWait ∧ t.busy = true ∧ SameReading s t ∧
      t.pollcnt = s.pollcnt + n ∧ t.trace = s.trace ++ failedPollEvents n s.par.tPoll ∧ t.dqIn = rest

/-- R9, R143: both levels of R9 lead to exactly the state that running an operation as a whole gives, and the tick level takes exactly the
time that stands in the trace: for the body of any sequencer state with no primitive running, and for any operation called by itself. -/
def Obligations.TickLevelRefinesSymbolLevel : Prop :=
  ∀ (s t : State) (i : Instr), s.ph = .idle → s.tmr = 0 → s.use = .sequencer → exec i s = .next t →
    (decode (.seq4 s.seq.code) = .ok i →
      (∃ n, symbolSteps n s = t) ∧ ∃ n, ticks n s = t ∧ duration t.trace = duration s.trace + elapsed n s) ∧
    (i.format ≠ .seq4 → i.format ≠ .host1 → ∀ u, runCall i s = .next u →
      (s.par.level = .symbol → ∃ n, symbolSteps n u = t) ∧
      (s.par.level = .tick → ∃ n, ticks n u = t ∧ duration t.trace = duration s.trace + elapsed n u))

/-- R42, `10_state.md` section 10: the internal registers are written before they are read. Two resting states that differ only in them,
the unspecified `SP` among them, give the same trace and the same outputs at every step of a transaction and after. -/
def Obligations.InternalRegistersAreNeverSeen : Prop :=
  ∀ (s : State) (shr : Byte) (bitcnt : BitVec 4) (sp : Vector Byte 9) (bytecnt : BitVec 4) (crc : Byte)
    (pres rxbit : Bit) (pollcnt n : Nat), StartsTransaction s →
    ∃ t u : State, runSteps n s = .next t ∧
      runSteps n { s with shr := shr, bitcnt := bitcnt, sp := sp, bytecnt := bytecnt, crc := crc,
                          pres := pres, rxbit := rxbit, pollcnt := pollcnt } = .next u ∧
      u.trace = t.trace ∧ u.outputs = t.outputs
end

