-- ==== Sys2Proof/Laws/Decode.lean ====
section
/-! SUPPORT. Bits and bytes, and waveforms cut into slots. -/

namespace Sys2Proof

/-- A byte is assembled again from its bits (R67, R103). -/
theorem byteOfBits_bitsOf (b : Byte) : byteOfBits (bitsOf b) = b := by
  revert b; decide

/-- The first slot of a waveform whose rest does not begin with a sample. -/
theorem takeSlot_wave (k : Slot) (ks : List Slot) :
    takeSlot (k.wave ++ ks.flatMap Slot.wave) = some (k, ks.flatMap Slot.wave) := by
  cases k with
  | read => rfl
  | write v =>
    cases ks with
    | nil => cases v <;> rfl
    | cons k' ks =>
      cases v <;> cases k' with
      | read => rfl
      | write w => cases w <;> rfl

/-- The waveform of slots is cut into the same slots (R96). -/
theorem takeSlots_waves (ks : List Slot) : takeSlots ks.length (ks.flatMap Slot.wave) = some ks := by
  induction ks with
  | nil => rfl
  | cons k ks ih => simp [takeSlots, takeSlot_wave, ih]

/-- The values of write slots. -/
theorem writtenBits_write (bs : List Bit) : writtenBits (bs.map Slot.write) = some bs := by
  induction bs with
  | nil => rfl
  | cons b bs ih => simp [writtenBits, ih]

end Sys2Proof
end

