-- ==== Sys2Proof/Laws/State.lean ====
section
/-! SUPPORT. One lemma per field and per update of the state, so that no later proof unfolds an update. -/

namespace Sys2Proof.Machine

variable (s : State)

/-! ## `driveLow` -/

@[simp] theorem driveLow_seq : (driveLow s).seq = s.seq := rfl
@[simp] theorem driveLow_ph : (driveLow s).ph = s.ph := rfl
@[simp] theorem driveLow_tmr : (driveLow s).tmr = s.tmr := rfl
@[simp] theorem driveLow_dqOe : (driveLow s).dqOe = true := rfl
@[simp] theorem driveLow_shr : (driveLow s).shr = s.shr := rfl
@[simp] theorem driveLow_bitcnt : (driveLow s).bitcnt = s.bitcnt := rfl
@[simp] theorem driveLow_sp : (driveLow s).sp = s.sp := rfl
@[simp] theorem driveLow_bytecnt : (driveLow s).bytecnt = s.bytecnt := rfl
@[simp] theorem driveLow_crc : (driveLow s).crc = s.crc := rfl
@[simp] theorem driveLow_rsValid : (driveLow s).rsValid = s.rsValid := rfl
@[simp] theorem driveLow_rsRaw : (driveLow s).rsRaw = s.rsRaw := rfl
@[simp] theorem driveLow_pres : (driveLow s).pres = s.pres := rfl
@[simp] theorem driveLow_rxbit : (driveLow s).rxbit = s.rxbit := rfl
@[simp] theorem driveLow_pollcnt : (driveLow s).pollcnt = s.pollcnt := rfl
@[simp] theorem driveLow_trace : (driveLow s).trace = s.trace := rfl
@[simp] theorem driveLow_par : (driveLow s).par = s.par := rfl
@[simp] theorem driveLow_dqIn : (driveLow s).dqIn = s.dqIn := rfl
@[simp] theorem driveLow_resets : (driveLow s).resets = s.resets := rfl
@[simp] theorem driveLow_host : (driveLow s).host = s.host := rfl
@[simp] theorem driveLow_bench : (driveLow s).bench = s.bench := rfl
@[simp] theorem driveLow_use : (driveLow s).use = s.use := rfl
@[simp] theorem driveLow_res : (driveLow s).res = s.res := rfl

/-! ## `release` -/

@[simp] theorem release_seq : (release s).seq = s.seq := rfl
@[simp] theorem release_ph : (release s).ph = s.ph := rfl
@[simp] theorem release_tmr : (release s).tmr = s.tmr := rfl
@[simp] theorem release_dqOe : (release s).dqOe = false := rfl
@[simp] theorem release_shr : (release s).shr = s.shr := rfl
@[simp] theorem release_bitcnt : (release s).bitcnt = s.bitcnt := rfl
@[simp] theorem release_sp : (release s).sp = s.sp := rfl
@[simp] theorem release_bytecnt : (release s).bytecnt = s.bytecnt := rfl
@[simp] theorem release_crc : (release s).crc = s.crc := rfl
@[simp] theorem release_rsValid : (release s).rsValid = s.rsValid := rfl
@[simp] theorem release_rsRaw : (release s).rsRaw = s.rsRaw := rfl
@[simp] theorem release_pres : (release s).pres = s.pres := rfl
@[simp] theorem release_rxbit : (release s).rxbit = s.rxbit := rfl
@[simp] theorem release_pollcnt : (release s).pollcnt = s.pollcnt := rfl
@[simp] theorem release_trace : (release s).trace = s.trace := rfl
@[simp] theorem release_par : (release s).par = s.par := rfl
@[simp] theorem release_dqIn : (release s).dqIn = s.dqIn := rfl
@[simp] theorem release_resets : (release s).resets = s.resets := rfl
@[simp] theorem release_host : (release s).host = s.host := rfl
@[simp] theorem release_bench : (release s).bench = s.bench := rfl
@[simp] theorem release_use : (release s).use = s.use := rfl
@[simp] theorem release_res : (release s).res = s.res := rfl

/-! ## `emit` -/

@[simp] theorem emit_seq (e : Event) : (emit e s).seq = s.seq := rfl
@[simp] theorem emit_ph (e : Event) : (emit e s).ph = s.ph := rfl
@[simp] theorem emit_tmr (e : Event) : (emit e s).tmr = s.tmr := rfl
@[simp] theorem emit_dqOe (e : Event) : (emit e s).dqOe = s.dqOe := rfl
@[simp] theorem emit_shr (e : Event) : (emit e s).shr = s.shr := rfl
@[simp] theorem emit_bitcnt (e : Event) : (emit e s).bitcnt = s.bitcnt := rfl
@[simp] theorem emit_sp (e : Event) : (emit e s).sp = s.sp := rfl
@[simp] theorem emit_bytecnt (e : Event) : (emit e s).bytecnt = s.bytecnt := rfl
@[simp] theorem emit_crc (e : Event) : (emit e s).crc = s.crc := rfl
@[simp] theorem emit_rsValid (e : Event) : (emit e s).rsValid = s.rsValid := rfl
@[simp] theorem emit_rsRaw (e : Event) : (emit e s).rsRaw = s.rsRaw := rfl
@[simp] theorem emit_pres (e : Event) : (emit e s).pres = s.pres := rfl
@[simp] theorem emit_rxbit (e : Event) : (emit e s).rxbit = s.rxbit := rfl
@[simp] theorem emit_pollcnt (e : Event) : (emit e s).pollcnt = s.pollcnt := rfl
@[simp] theorem emit_trace (e : Event) : (emit e s).trace = s.trace ++ [e] := rfl
@[simp] theorem emit_par (e : Event) : (emit e s).par = s.par := rfl
@[simp] theorem emit_dqIn (e : Event) : (emit e s).dqIn = s.dqIn := rfl
@[simp] theorem emit_resets (e : Event) : (emit e s).resets = s.resets := rfl
@[simp] theorem emit_host (e : Event) : (emit e s).host = s.host := rfl
@[simp] theorem emit_bench (e : Event) : (emit e s).bench = s.bench := rfl
@[simp] theorem emit_use (e : Event) : (emit e s).use = s.use := rfl
@[simp] theorem emit_res (e : Event) : (emit e s).res = s.res := rfl

/-! ## `delay` -/

@[simp] theorem delay_seq (n : Nat) : (delay n s).seq = s.seq := rfl
@[simp] theorem delay_ph (n : Nat) : (delay n s).ph = s.ph := rfl
@[simp] theorem delay_tmr (n : Nat) : (delay n s).tmr = s.tmr := rfl
@[simp] theorem delay_dqOe (n : Nat) : (delay n s).dqOe = s.dqOe := rfl
@[simp] theorem delay_shr (n : Nat) : (delay n s).shr = s.shr := rfl
@[simp] theorem delay_bitcnt (n : Nat) : (delay n s).bitcnt = s.bitcnt := rfl
@[simp] theorem delay_sp (n : Nat) : (delay n s).sp = s.sp := rfl
@[simp] theorem delay_bytecnt (n : Nat) : (delay n s).bytecnt = s.bytecnt := rfl
@[simp] theorem delay_crc (n : Nat) : (delay n s).crc = s.crc := rfl
@[simp] theorem delay_rsValid (n : Nat) : (delay n s).rsValid = s.rsValid := rfl
@[simp] theorem delay_rsRaw (n : Nat) : (delay n s).rsRaw = s.rsRaw := rfl
@[simp] theorem delay_pres (n : Nat) : (delay n s).pres = s.pres := rfl
@[simp] theorem delay_rxbit (n : Nat) : (delay n s).rxbit = s.rxbit := rfl
@[simp] theorem delay_pollcnt (n : Nat) : (delay n s).pollcnt = s.pollcnt := rfl
@[simp] theorem delay_trace (n : Nat) : (delay n s).trace = s.trace ++ [if s.dqOe then .low n else .rel n] := rfl
@[simp] theorem delay_par (n : Nat) : (delay n s).par = s.par := rfl
@[simp] theorem delay_dqIn (n : Nat) : (delay n s).dqIn = s.dqIn := rfl
@[simp] theorem delay_resets (n : Nat) : (delay n s).resets = s.resets := rfl
@[simp] theorem delay_host (n : Nat) : (delay n s).host = s.host := rfl
@[simp] theorem delay_bench (n : Nat) : (delay n s).bench = s.bench := rfl
@[simp] theorem delay_use (n : Nat) : (delay n s).use = s.use := rfl
@[simp] theorem delay_res (n : Nat) : (delay n s).res = s.res := rfl

/-! ## `storeSp` -/

@[simp] theorem storeSp_seq (b : Byte) : (s.storeSp b).seq = s.seq := rfl
@[simp] theorem storeSp_ph (b : Byte) : (s.storeSp b).ph = s.ph := rfl
@[simp] theorem storeSp_tmr (b : Byte) : (s.storeSp b).tmr = s.tmr := rfl
@[simp] theorem storeSp_dqOe (b : Byte) : (s.storeSp b).dqOe = s.dqOe := rfl
@[simp] theorem storeSp_shr (b : Byte) : (s.storeSp b).shr = s.shr := rfl
@[simp] theorem storeSp_bitcnt (b : Byte) : (s.storeSp b).bitcnt = s.bitcnt := rfl
@[simp] theorem storeSp_sp (b : Byte) : (s.storeSp b).sp = s.sp.setIfInBounds s.bytecnt.toNat b := rfl
@[simp] theorem storeSp_bytecnt (b : Byte) : (s.storeSp b).bytecnt = s.bytecnt + 1 := rfl
@[simp] theorem storeSp_crc (b : Byte) : (s.storeSp b).crc = s.crc := rfl
@[simp] theorem storeSp_rsValid (b : Byte) : (s.storeSp b).rsValid = s.rsValid := rfl
@[simp] theorem storeSp_rsRaw (b : Byte) : (s.storeSp b).rsRaw = s.rsRaw := rfl
@[simp] theorem storeSp_pres (b : Byte) : (s.storeSp b).pres = s.pres := rfl
@[simp] theorem storeSp_rxbit (b : Byte) : (s.storeSp b).rxbit = s.rxbit := rfl
@[simp] theorem storeSp_pollcnt (b : Byte) : (s.storeSp b).pollcnt = s.pollcnt := rfl
@[simp] theorem storeSp_trace (b : Byte) : (s.storeSp b).trace = s.trace := rfl
@[simp] theorem storeSp_par (b : Byte) : (s.storeSp b).par = s.par := rfl
@[simp] theorem storeSp_dqIn (b : Byte) : (s.storeSp b).dqIn = s.dqIn := rfl
@[simp] theorem storeSp_resets (b : Byte) : (s.storeSp b).resets = s.resets := rfl
@[simp] theorem storeSp_host (b : Byte) : (s.storeSp b).host = s.host := rfl
@[simp] theorem storeSp_bench (b : Byte) : (s.storeSp b).bench = s.bench := rfl
@[simp] theorem storeSp_use (b : Byte) : (s.storeSp b).use = s.use := rfl
@[simp] theorem storeSp_res (b : Byte) : (s.storeSp b).res = s.res := rfl

/-! ## `shiftIn` -/

@[simp] theorem shiftIn_seq (r : Bit) : (shiftIn r s).seq = s.seq := rfl
@[simp] theorem shiftIn_ph (r : Bit) : (shiftIn r s).ph = s.ph := rfl
@[simp] theorem shiftIn_tmr (r : Bit) : (shiftIn r s).tmr = s.tmr := rfl
@[simp] theorem shiftIn_dqOe (r : Bit) : (shiftIn r s).dqOe = s.dqOe := rfl
@[simp] theorem shiftIn_shr (r : Bit) : (shiftIn r s).shr = shiftInByte r s.shr := rfl
@[simp] theorem shiftIn_bitcnt (r : Bit) : (shiftIn r s).bitcnt = s.bitcnt + 1 := rfl
@[simp] theorem shiftIn_sp (r : Bit) : (shiftIn r s).sp = s.sp := rfl
@[simp] theorem shiftIn_bytecnt (r : Bit) : (shiftIn r s).bytecnt = s.bytecnt := rfl
@[simp] theorem shiftIn_crc (r : Bit) : (shiftIn r s).crc = s.crc := rfl
@[simp] theorem shiftIn_rsValid (r : Bit) : (shiftIn r s).rsValid = s.rsValid := rfl
@[simp] theorem shiftIn_rsRaw (r : Bit) : (shiftIn r s).rsRaw = s.rsRaw := rfl
@[simp] theorem shiftIn_pres (r : Bit) : (shiftIn r s).pres = s.pres := rfl
@[simp] theorem shiftIn_rxbit (r : Bit) : (shiftIn r s).rxbit = s.rxbit := rfl
@[simp] theorem shiftIn_pollcnt (r : Bit) : (shiftIn r s).pollcnt = s.pollcnt := rfl
@[simp] theorem shiftIn_trace (r : Bit) : (shiftIn r s).trace = s.trace := rfl
@[simp] theorem shiftIn_par (r : Bit) : (shiftIn r s).par = s.par := rfl
@[simp] theorem shiftIn_dqIn (r : Bit) : (shiftIn r s).dqIn = s.dqIn := rfl
@[simp] theorem shiftIn_resets (r : Bit) : (shiftIn r s).resets = s.resets := rfl
@[simp] theorem shiftIn_host (r : Bit) : (shiftIn r s).host = s.host := rfl
@[simp] theorem shiftIn_bench (r : Bit) : (shiftIn r s).bench = s.bench := rfl
@[simp] theorem shiftIn_use (r : Bit) : (shiftIn r s).use = s.use := rfl
@[simp] theorem shiftIn_res (r : Bit) : (shiftIn r s).res = s.res := rfl

/-! ## `commitReading` -/

@[simp] theorem commitReading_seq (raw : Raw) : (commitReading raw s).seq = s.seq := rfl
@[simp] theorem commitReading_ph (raw : Raw) : (commitReading raw s).ph = s.ph := rfl
@[simp] theorem commitReading_tmr (raw : Raw) : (commitReading raw s).tmr = s.tmr := rfl
@[simp] theorem commitReading_dqOe (raw : Raw) : (commitReading raw s).dqOe = s.dqOe := rfl
@[simp] theorem commitReading_shr (raw : Raw) : (commitReading raw s).shr = s.shr := rfl
@[simp] theorem commitReading_bitcnt (raw : Raw) : (commitReading raw s).bitcnt = s.bitcnt := rfl
@[simp] theorem commitReading_sp (raw : Raw) : (commitReading raw s).sp = s.sp := rfl
@[simp] theorem commitReading_bytecnt (raw : Raw) : (commitReading raw s).bytecnt = s.bytecnt := rfl
@[simp] theorem commitReading_crc (raw : Raw) : (commitReading raw s).crc = s.crc := rfl
@[simp] theorem commitReading_rsValid (raw : Raw) : (commitReading raw s).rsValid = true := rfl
@[simp] theorem commitReading_rsRaw (raw : Raw) : (commitReading raw s).rsRaw = raw := rfl
@[simp] theorem commitReading_pres (raw : Raw) : (commitReading raw s).pres = s.pres := rfl
@[simp] theorem commitReading_rxbit (raw : Raw) : (commitReading raw s).rxbit = s.rxbit := rfl
@[simp] theorem commitReading_pollcnt (raw : Raw) : (commitReading raw s).pollcnt = s.pollcnt := rfl
@[simp] theorem commitReading_trace (raw : Raw) : (commitReading raw s).trace = s.trace := rfl
@[simp] theorem commitReading_par (raw : Raw) : (commitReading raw s).par = s.par := rfl
@[simp] theorem commitReading_dqIn (raw : Raw) : (commitReading raw s).dqIn = s.dqIn := rfl
@[simp] theorem commitReading_resets (raw : Raw) : (commitReading raw s).resets = s.resets := rfl
@[simp] theorem commitReading_host (raw : Raw) : (commitReading raw s).host = s.host := rfl
@[simp] theorem commitReading_bench (raw : Raw) : (commitReading raw s).bench = s.bench := rfl
@[simp] theorem commitReading_use (raw : Raw) : (commitReading raw s).use = s.use := rfl
@[simp] theorem commitReading_res (raw : Raw) : (commitReading raw s).res = s.res := rfl

/-! ## `clearReading` -/

@[simp] theorem clearReading_seq : (clearReading s).seq = s.seq := rfl
@[simp] theorem clearReading_ph : (clearReading s).ph = s.ph := rfl
@[simp] theorem clearReading_tmr : (clearReading s).tmr = s.tmr := rfl
@[simp] theorem clearReading_dqOe : (clearReading s).dqOe = s.dqOe := rfl
@[simp] theorem clearReading_shr : (clearReading s).shr = s.shr := rfl
@[simp] theorem clearReading_bitcnt : (clearReading s).bitcnt = s.bitcnt := rfl
@[simp] theorem clearReading_sp : (clearReading s).sp = s.sp := rfl
@[simp] theorem clearReading_bytecnt : (clearReading s).bytecnt = s.bytecnt := rfl
@[simp] theorem clearReading_crc : (clearReading s).crc = s.crc := rfl
@[simp] theorem clearReading_rsValid : (clearReading s).rsValid = false := rfl
@[simp] theorem clearReading_rsRaw : (clearReading s).rsRaw = 0 := rfl
@[simp] theorem clearReading_pres : (clearReading s).pres = s.pres := rfl
@[simp] theorem clearReading_rxbit : (clearReading s).rxbit = s.rxbit := rfl
@[simp] theorem clearReading_pollcnt : (clearReading s).pollcnt = s.pollcnt := rfl
@[simp] theorem clearReading_trace : (clearReading s).trace = s.trace := rfl
@[simp] theorem clearReading_par : (clearReading s).par = s.par := rfl
@[simp] theorem clearReading_dqIn : (clearReading s).dqIn = s.dqIn := rfl
@[simp] theorem clearReading_resets : (clearReading s).resets = s.resets := rfl
@[simp] theorem clearReading_host : (clearReading s).host = s.host := rfl
@[simp] theorem clearReading_bench : (clearReading s).bench = s.bench := rfl
@[simp] theorem clearReading_use : (clearReading s).use = s.use := rfl
@[simp] theorem clearReading_res : (clearReading s).res = s.res := rfl

/-! ## `goTo` -/

@[simp] theorem goTo_seq (p : Phase) : (goTo p s).seq = s.seq := rfl
@[simp] theorem goTo_ph (p : Phase) : (goTo p s).ph = p := rfl
@[simp] theorem goTo_tmr (p : Phase) : (goTo p s).tmr = s.tmr := rfl
@[simp] theorem goTo_dqOe (p : Phase) : (goTo p s).dqOe = s.dqOe := rfl
@[simp] theorem goTo_shr (p : Phase) : (goTo p s).shr = s.shr := rfl
@[simp] theorem goTo_bitcnt (p : Phase) : (goTo p s).bitcnt = s.bitcnt := rfl
@[simp] theorem goTo_sp (p : Phase) : (goTo p s).sp = s.sp := rfl
@[simp] theorem goTo_bytecnt (p : Phase) : (goTo p s).bytecnt = s.bytecnt := rfl
@[simp] theorem goTo_crc (p : Phase) : (goTo p s).crc = s.crc := rfl
@[simp] theorem goTo_rsValid (p : Phase) : (goTo p s).rsValid = s.rsValid := rfl
@[simp] theorem goTo_rsRaw (p : Phase) : (goTo p s).rsRaw = s.rsRaw := rfl
@[simp] theorem goTo_pres (p : Phase) : (goTo p s).pres = s.pres := rfl
@[simp] theorem goTo_rxbit (p : Phase) : (goTo p s).rxbit = s.rxbit := rfl
@[simp] theorem goTo_pollcnt (p : Phase) : (goTo p s).pollcnt = s.pollcnt := rfl
@[simp] theorem goTo_trace (p : Phase) : (goTo p s).trace = s.trace := rfl
@[simp] theorem goTo_par (p : Phase) : (goTo p s).par = s.par := rfl
@[simp] theorem goTo_dqIn (p : Phase) : (goTo p s).dqIn = s.dqIn := rfl
@[simp] theorem goTo_resets (p : Phase) : (goTo p s).resets = s.resets := rfl
@[simp] theorem goTo_host (p : Phase) : (goTo p s).host = s.host := rfl
@[simp] theorem goTo_bench (p : Phase) : (goTo p s).bench = s.bench := rfl
@[simp] theorem goTo_use (p : Phase) : (goTo p s).use = s.use := rfl
@[simp] theorem goTo_res (p : Phase) : (goTo p s).res = s.res := rfl

/-! ## `leaveTo` -/

@[simp] theorem leaveTo_seq (q : SeqState) : (leaveTo q s).seq = q := rfl
@[simp] theorem leaveTo_ph (q : SeqState) : (leaveTo q s).ph = .idle := rfl
@[simp] theorem leaveTo_tmr (q : SeqState) : (leaveTo q s).tmr = s.tmr := rfl
@[simp] theorem leaveTo_dqOe (q : SeqState) : (leaveTo q s).dqOe = s.dqOe := rfl
@[simp] theorem leaveTo_shr (q : SeqState) : (leaveTo q s).shr = s.shr := rfl
@[simp] theorem leaveTo_bitcnt (q : SeqState) : (leaveTo q s).bitcnt = s.bitcnt := rfl
@[simp] theorem leaveTo_sp (q : SeqState) : (leaveTo q s).sp = s.sp := rfl
@[simp] theorem leaveTo_bytecnt (q : SeqState) : (leaveTo q s).bytecnt = s.bytecnt := rfl
@[simp] theorem leaveTo_crc (q : SeqState) : (leaveTo q s).crc = s.crc := rfl
@[simp] theorem leaveTo_rsValid (q : SeqState) : (leaveTo q s).rsValid = s.rsValid := rfl
@[simp] theorem leaveTo_rsRaw (q : SeqState) : (leaveTo q s).rsRaw = s.rsRaw := rfl
@[simp] theorem leaveTo_pres (q : SeqState) : (leaveTo q s).pres = s.pres := rfl
@[simp] theorem leaveTo_rxbit (q : SeqState) : (leaveTo q s).rxbit = s.rxbit := rfl
@[simp] theorem leaveTo_pollcnt (q : SeqState) : (leaveTo q s).pollcnt = s.pollcnt := rfl
@[simp] theorem leaveTo_trace (q : SeqState) : (leaveTo q s).trace = s.trace := rfl
@[simp] theorem leaveTo_par (q : SeqState) : (leaveTo q s).par = s.par := rfl
@[simp] theorem leaveTo_dqIn (q : SeqState) : (leaveTo q s).dqIn = s.dqIn := rfl
@[simp] theorem leaveTo_resets (q : SeqState) : (leaveTo q s).resets = s.resets := rfl
@[simp] theorem leaveTo_host (q : SeqState) : (leaveTo q s).host = s.host := rfl
@[simp] theorem leaveTo_bench (q : SeqState) : (leaveTo q s).bench = s.bench := rfl
@[simp] theorem leaveTo_use (q : SeqState) : (leaveTo q s).use = s.use := rfl
@[simp] theorem leaveTo_res (q : SeqState) : (leaveTo q s).res = s.res := rfl

/-! ## `callDone` -/

@[simp] theorem callDone_seq (r : Result) : (callDone r s).seq = s.seq := rfl
@[simp] theorem callDone_ph (r : Result) : (callDone r s).ph = .idle := rfl
@[simp] theorem callDone_tmr (r : Result) : (callDone r s).tmr = s.tmr := rfl
@[simp] theorem callDone_dqOe (r : Result) : (callDone r s).dqOe = s.dqOe := rfl
@[simp] theorem callDone_shr (r : Result) : (callDone r s).shr = s.shr := rfl
@[simp] theorem callDone_bitcnt (r : Result) : (callDone r s).bitcnt = s.bitcnt := rfl
@[simp] theorem callDone_sp (r : Result) : (callDone r s).sp = s.sp := rfl
@[simp] theorem callDone_bytecnt (r : Result) : (callDone r s).bytecnt = s.bytecnt := rfl
@[simp] theorem callDone_crc (r : Result) : (callDone r s).crc = s.crc := rfl
@[simp] theorem callDone_rsValid (r : Result) : (callDone r s).rsValid = s.rsValid := rfl
@[simp] theorem callDone_rsRaw (r : Result) : (callDone r s).rsRaw = s.rsRaw := rfl
@[simp] theorem callDone_pres (r : Result) : (callDone r s).pres = s.pres := rfl
@[simp] theorem callDone_rxbit (r : Result) : (callDone r s).rxbit = s.rxbit := rfl
@[simp] theorem callDone_pollcnt (r : Result) : (callDone r s).pollcnt = s.pollcnt := rfl
@[simp] theorem callDone_trace (r : Result) : (callDone r s).trace = s.trace := rfl
@[simp] theorem callDone_par (r : Result) : (callDone r s).par = s.par := rfl
@[simp] theorem callDone_dqIn (r : Result) : (callDone r s).dqIn = s.dqIn := rfl
@[simp] theorem callDone_resets (r : Result) : (callDone r s).resets = s.resets := rfl
@[simp] theorem callDone_host (r : Result) : (callDone r s).host = s.host := rfl
@[simp] theorem callDone_bench (r : Result) : (callDone r s).bench = s.bench := rfl
@[simp] theorem callDone_use (r : Result) : (callDone r s).use = .sequencer := rfl
@[simp] theorem callDone_res (r : Result) : (callDone r s).res = r := rfl

/-! ## `startTx` -/

@[simp] theorem startTx_seq (b : Byte) : (startTx b s).seq = s.seq := rfl
@[simp] theorem startTx_ph (b : Byte) : (startTx b s).ph = .wrLow := rfl
@[simp] theorem startTx_tmr (b : Byte) : (startTx b s).tmr = s.tmr := rfl
@[simp] theorem startTx_dqOe (b : Byte) : (startTx b s).dqOe = s.dqOe := rfl
@[simp] theorem startTx_shr (b : Byte) : (startTx b s).shr = b := rfl
@[simp] theorem startTx_bitcnt (b : Byte) : (startTx b s).bitcnt = 0 := rfl
@[simp] theorem startTx_sp (b : Byte) : (startTx b s).sp = s.sp := rfl
@[simp] theorem startTx_bytecnt (b : Byte) : (startTx b s).bytecnt = s.bytecnt := rfl
@[simp] theorem startTx_crc (b : Byte) : (startTx b s).crc = s.crc := rfl
@[simp] theorem startTx_rsValid (b : Byte) : (startTx b s).rsValid = s.rsValid := rfl
@[simp] theorem startTx_rsRaw (b : Byte) : (startTx b s).rsRaw = s.rsRaw := rfl
@[simp] theorem startTx_pres (b : Byte) : (startTx b s).pres = s.pres := rfl
@[simp] theorem startTx_rxbit (b : Byte) : (startTx b s).rxbit = s.rxbit := rfl
@[simp] theorem startTx_pollcnt (b : Byte) : (startTx b s).pollcnt = s.pollcnt := rfl
@[simp] theorem startTx_trace (b : Byte) : (startTx b s).trace = s.trace := rfl
@[simp] theorem startTx_par (b : Byte) : (startTx b s).par = s.par := rfl
@[simp] theorem startTx_dqIn (b : Byte) : (startTx b s).dqIn = s.dqIn := rfl
@[simp] theorem startTx_resets (b : Byte) : (startTx b s).resets = s.resets := rfl
@[simp] theorem startTx_host (b : Byte) : (startTx b s).host = s.host := rfl
@[simp] theorem startTx_bench (b : Byte) : (startTx b s).bench = s.bench := rfl
@[simp] theorem startTx_use (b : Byte) : (startTx b s).use = s.use := rfl
@[simp] theorem startTx_res (b : Byte) : (startTx b s).res = s.res := rfl

/-! ## `startRx` -/

@[simp] theorem startRx_seq : (startRx s).seq = s.seq := rfl
@[simp] theorem startRx_ph : (startRx s).ph = .rdLow := rfl
@[simp] theorem startRx_tmr : (startRx s).tmr = s.tmr := rfl
@[simp] theorem startRx_dqOe : (startRx s).dqOe = s.dqOe := rfl
@[simp] theorem startRx_shr : (startRx s).shr = 0 := rfl
@[simp] theorem startRx_bitcnt : (startRx s).bitcnt = 0 := rfl
@[simp] theorem startRx_sp : (startRx s).sp = s.sp := rfl
@[simp] theorem startRx_bytecnt : (startRx s).bytecnt = s.bytecnt := rfl
@[simp] theorem startRx_crc : (startRx s).crc = s.crc := rfl
@[simp] theorem startRx_rsValid : (startRx s).rsValid = s.rsValid := rfl
@[simp] theorem startRx_rsRaw : (startRx s).rsRaw = s.rsRaw := rfl
@[simp] theorem startRx_pres : (startRx s).pres = s.pres := rfl
@[simp] theorem startRx_rxbit : (startRx s).rxbit = s.rxbit := rfl
@[simp] theorem startRx_pollcnt : (startRx s).pollcnt = s.pollcnt := rfl
@[simp] theorem startRx_trace : (startRx s).trace = s.trace := rfl
@[simp] theorem startRx_par : (startRx s).par = s.par := rfl
@[simp] theorem startRx_dqIn : (startRx s).dqIn = s.dqIn := rfl
@[simp] theorem startRx_resets : (startRx s).resets = s.resets := rfl
@[simp] theorem startRx_host : (startRx s).host = s.host := rfl
@[simp] theorem startRx_bench : (startRx s).bench = s.bench := rfl
@[simp] theorem startRx_use : (startRx s).use = s.use := rfl
@[simp] theorem startRx_res : (startRx s).res = s.res := rfl

/-! ## `sample` -/

@[simp] theorem sample_seq : (sample s).2.seq = s.seq := rfl
@[simp] theorem sample_ph : (sample s).2.ph = s.ph := rfl
@[simp] theorem sample_tmr : (sample s).2.tmr = s.tmr := rfl
@[simp] theorem sample_dqOe : (sample s).2.dqOe = s.dqOe := rfl
@[simp] theorem sample_shr : (sample s).2.shr = s.shr := rfl
@[simp] theorem sample_bitcnt : (sample s).2.bitcnt = s.bitcnt := rfl
@[simp] theorem sample_sp : (sample s).2.sp = s.sp := rfl
@[simp] theorem sample_bytecnt : (sample s).2.bytecnt = s.bytecnt := rfl
@[simp] theorem sample_crc : (sample s).2.crc = s.crc := rfl
@[simp] theorem sample_rsValid : (sample s).2.rsValid = s.rsValid := rfl
@[simp] theorem sample_rsRaw : (sample s).2.rsRaw = s.rsRaw := rfl
@[simp] theorem sample_pres : (sample s).2.pres = s.pres := rfl
@[simp] theorem sample_rxbit : (sample s).2.rxbit = s.rxbit := rfl
@[simp] theorem sample_pollcnt : (sample s).2.pollcnt = s.pollcnt := rfl
@[simp] theorem sample_trace : (sample s).2.trace = s.trace ++ [.smp (sample s).1] := rfl
@[simp] theorem sample_par : (sample s).2.par = s.par := rfl
@[simp] theorem sample_dqIn : (sample s).2.dqIn = s.dqIn.tail := rfl
@[simp] theorem sample_resets : (sample s).2.resets = s.resets := rfl
@[simp] theorem sample_host : (sample s).2.host = s.host := rfl
@[simp] theorem sample_bench : (sample s).2.bench = s.bench := rfl
@[simp] theorem sample_use : (sample s).2.use = s.use := rfl
@[simp] theorem sample_res : (sample s).2.res = s.res := rfl

/-! ## `taken` -/

@[simp] theorem taken_seq : (taken s).seq = s.seq := rfl
@[simp] theorem taken_ph : (taken s).ph = s.ph := rfl
@[simp] theorem taken_tmr : (taken s).tmr = s.tmr := rfl
@[simp] theorem taken_dqOe : (taken s).dqOe = s.dqOe := rfl
@[simp] theorem taken_shr : (taken s).shr = s.shr := rfl
@[simp] theorem taken_bitcnt : (taken s).bitcnt = s.bitcnt := rfl
@[simp] theorem taken_sp : (taken s).sp = s.sp := rfl
@[simp] theorem taken_bytecnt : (taken s).bytecnt = s.bytecnt := rfl
@[simp] theorem taken_crc : (taken s).crc = s.crc := rfl
@[simp] theorem taken_rsValid : (taken s).rsValid = s.rsValid := rfl
@[simp] theorem taken_rsRaw : (taken s).rsRaw = s.rsRaw := rfl
@[simp] theorem taken_pres : (taken s).pres = s.pres := rfl
@[simp] theorem taken_rxbit : (taken s).rxbit = s.rxbit := rfl
@[simp] theorem taken_pollcnt : (taken s).pollcnt = s.pollcnt := rfl
@[simp] theorem taken_trace : (taken s).trace = s.trace := rfl
@[simp] theorem taken_par : (taken s).par = s.par := rfl
@[simp] theorem taken_dqIn : (taken s).dqIn = s.dqIn := rfl
@[simp] theorem taken_resets : (taken s).resets = s.resets := rfl
@[simp] theorem taken_host : (taken s).host = s.host.tail := rfl
@[simp] theorem taken_bench : (taken s).bench = benchRest s := rfl
@[simp] theorem taken_use : (taken s).use = s.use := rfl
@[simp] theorem taken_res : (taken s).res = s.res := rfl

/-! ## `enterPhase` -/

@[simp] theorem enterPhase_seq : (enterPhase s).seq = s.seq := by unfold enterPhase; split <;> rfl
@[simp] theorem enterPhase_ph : (enterPhase s).ph = s.ph := by unfold enterPhase; split <;> rfl
@[simp] theorem enterPhase_shr : (enterPhase s).shr = s.shr := by unfold enterPhase; split <;> rfl
@[simp] theorem enterPhase_bitcnt : (enterPhase s).bitcnt = s.bitcnt := by unfold enterPhase; split <;> rfl
@[simp] theorem enterPhase_sp : (enterPhase s).sp = s.sp := by unfold enterPhase; split <;> rfl
@[simp] theorem enterPhase_bytecnt : (enterPhase s).bytecnt = s.bytecnt := by unfold enterPhase; split <;> rfl
@[simp] theorem enterPhase_crc : (enterPhase s).crc = s.crc := by unfold enterPhase; split <;> rfl
@[simp] theorem enterPhase_rsValid : (enterPhase s).rsValid = s.rsValid := by unfold enterPhase; split <;> rfl
@[simp] theorem enterPhase_rsRaw : (enterPhase s).rsRaw = s.rsRaw := by unfold enterPhase; split <;> rfl
@[simp] theorem enterPhase_pres : (enterPhase s).pres = s.pres := by unfold enterPhase; split <;> rfl
@[simp] theorem enterPhase_rxbit : (enterPhase s).rxbit = s.rxbit := by unfold enterPhase; split <;> rfl
@[simp] theorem enterPhase_pollcnt : (enterPhase s).pollcnt = s.pollcnt := by unfold enterPhase; split <;> rfl
@[simp] theorem enterPhase_par : (enterPhase s).par = s.par := by unfold enterPhase; split <;> rfl
@[simp] theorem enterPhase_dqIn : (enterPhase s).dqIn = s.dqIn := by unfold enterPhase; split <;> rfl
@[simp] theorem enterPhase_resets : (enterPhase s).resets = s.resets := by unfold enterPhase; split <;> rfl
@[simp] theorem enterPhase_host : (enterPhase s).host = s.host := by unfold enterPhase; split <;> rfl
@[simp] theorem enterPhase_bench : (enterPhase s).bench = s.bench := by unfold enterPhase; split <;> rfl
@[simp] theorem enterPhase_use : (enterPhase s).use = s.use := by unfold enterPhase; split <;> rfl
@[simp] theorem enterPhase_res : (enterPhase s).res = s.res := by unfold enterPhase; split <;> rfl

/-- A phase that takes no time is entered by doing nothing (R143). -/
theorem enterPhase_untimed (h : s.ph.timed = false) : enterPhase s = s := by simp [enterPhase, h]

/-- A timed phase is entered with its line mode, its event and its duration in `TMR` (R143). -/
theorem enterPhase_timed (h : s.ph.timed = true) :
    enterPhase s = { s with
      dqOe := s.ph.drives
      trace := s.trace ++ [if s.ph.drives then .low s.phaseTime else .rel s.phaseTime]
      tmr := s.phaseTime } := by
  simp [enterPhase, h, delay, emit]

end Sys2Proof.Machine
end

