-- ==== Sys2Proof/Laws/Line.lean ====
section
/-! SUPPORT. What the pulses, the slots and the reset frame do, said once each. -/

namespace Sys2Proof.Machine

variable (s : State)

/-- A sample of the released line reads the environment's answer (R65). -/
theorem sample_released (h : s.dqOe = false) :
    sample s = (s.answer, { s with trace := s.trace ++ [.smp s.answer], dqIn := s.dqIn.tail }) := by
  simp [sample, lineLevel, emit, h]

/-- A pulse: two events, and the line released (R139). -/
theorem pulse_eq (l h : Nat) :
    pulse l h s = { s with dqOe := false, trace := s.trace ++ [.low l, .rel h] } := by
  simp [pulse, delay, emit, release, driveLow]

/-- `WRITE_BIT v` (R136). -/
theorem writeBit_eq (v : Bit) :
    writeBit v s = { s with dqOe := false, trace := s.trace ++ writeSlotEvents v } := by
  cases v <;> simp [writeBit, writeTimes, pulse_eq, writeSlotEvents, Config.tW1L, Config.tW1H, Config.tW0L, Config.tW0H]

/-- The state at the sample of a read slot (R94). -/
def atReadSample : State := { s with dqOe := false, trace := s.trace ++ [.low 3, .rel 10] }

/-- `READ_BIT` (R137): the bit is the environment's answer at 13 µs. -/
theorem readBit_eq :
    readBit s = ((atReadSample s).answer,
      { s with
        dqOe := false
        trace := s.trace ++ readSlotEvents (atReadSample s).answer
        dqIn := s.dqIn.tail
        rxbit := (atReadSample s).answer }) := by
  have h : pulse Config.tRDL Config.tRDS s = atReadSample s := pulse_eq s _ _
  have hs := sample_released (atReadSample s) rfl
  simp only [readBit, h, hs]
  simp [delay, emit, readSlotEvents, Config.tRDREM, Config.tSLOT, Config.tRDL, Config.tRDS, atReadSample]

/-- The state at the presence sample (R91). -/
def atPresenceSample : State := { s with dqOe := false, trace := s.trace ++ [.low 500, .rel 65] }

/-- `RESET_DETECT` (R135). -/
theorem resetDetect_eq :
    resetDetect s = ((atPresenceSample s).answer,
      { s with
        dqOe := false
        trace := s.trace ++ resetEvents (atPresenceSample s).answer
        dqIn := s.dqIn.tail
        pres := !(atPresenceSample s).answer }) := by
  have h : pulse Config.tRSTL Config.tPDS s = atPresenceSample s := pulse_eq s _ _
  have hs := sample_released (atPresenceSample s) rfl
  simp only [resetDetect, h, hs, presFlag]
  cases (atPresenceSample s).answer <;>
    simp [delay, emit, resetEvents, Config.tRSTREC, atPresenceSample]

/-- A planned answer is the answer. -/
theorem answer_cons {b : Bit} {bs : List Bit} (h : s.dqIn = b :: bs) : s.answer = b := by
  simp [State.answer, h]

end Sys2Proof.Machine
end

