-- ==== Sys2Proof/Laws/PerInstr.lean ====
section
/-! SUPPORT. Statements about every operation as syntax, one lemma per constructor. -/

/-- The encoding of an operation has the format that the opcode table gives its row (R116). -/
def Sys2Proof.Laws.EncodedFormat.Statement (i : Sys2Proof.Instr) : Prop := (Sys2Proof.encode i).format = i.format

namespace Sys2Proof.Laws.EncodedFormat

theorem driveLow : Statement .driveLow := rfl
theorem release : Statement .release := rfl
theorem delay (n : Nat) : Statement (.delay n) := rfl
theorem sample : Statement .sample := rfl
theorem resetDetect : Statement .resetDetect := rfl
theorem w1 : Statement .w1 := rfl
theorem w0 : Statement .w0 := rfl
theorem readBit : Statement .readBit := rfl
theorem txByte (b : Byte) : Statement (.txByte b) := rfl
theorem rxByte : Statement .rxByte := rfl
theorem selectAll : Statement .selectAll := rfl
theorem convert : Statement .convert := rfl
theorem readSp : Statement .readSp := rfl
theorem crcStep (c b : Byte) : Statement (.crcStep c b) := rfl
theorem computeCrc (m : List Byte) : Statement (.computeCrc m) := rfl
theorem decode (r : Reading) : Statement (.decode r) := rfl
theorem latest : Statement .latest := rfl
theorem acquire : Statement .acquire := rfl
theorem reset : Statement .reset := rfl
theorem seqIdle : Statement .seqIdle := rfl
theorem seqReset1 : Statement .seqReset1 := rfl
theorem seqSelectAll1 : Statement .seqSelectAll1 := rfl
theorem seqStartConversion : Statement .seqStartConversion := rfl
theorem seqConversionWait : Statement .seqConversionWait := rfl
theorem seqReset2 : Statement .seqReset2 := rfl
theorem seqSelectAll2 : Statement .seqSelectAll2 := rfl
theorem seqReadScratchpad : Statement .seqReadScratchpad := rfl
theorem seqValidate : Statement .seqValidate := rfl
theorem seqCommitted : Statement .seqCommitted := rfl
theorem seqDiscarded : Statement .seqDiscarded := rfl
theorem seqAborted : Statement .seqAborted := rfl
theorem seqTimedOut : Statement .seqTimedOut := rfl

end Sys2Proof.Laws.EncodedFormat
end

