-- ==== Sys2Proof/Laws/Serializer.lean ====
section
/-! SUPPORT. What a transmitted and a received byte do, said once each. -/

namespace Sys2Proof.Machine

/-- The bits of a byte, bit 0 first, one by one. -/
theorem bitsOf_eq (b : Byte) :
    bitsOf b = [b.getLsbD 0, b.getLsbD 1, b.getLsbD 2, b.getLsbD 3, b.getLsbD 4, b.getLsbD 5, b.getLsbD 6, b.getLsbD 7] :=
  rfl

/-- One slot of a transmitted byte. -/
theorem txSlot_eq (s : State) :
    txSlot s = { s with
      dqOe := false
      trace := s.trace ++ writeSlotEvents (s.shr.getLsbD 0)
      shr := s.shr >>> 1
      bitcnt := s.bitcnt + 1 } := by
  simp [txSlot, writeBit_eq, State.shrBit, shiftOutByte]

/-- `TX_BYTE b` (R160): "After the operation `SHR` = 0". -/
theorem txByte_eq (b : Byte) (s : State) :
    txByte b s = { s with
      dqOe := false
      trace := s.trace ++ sentByteEvents b
      shr := 0
      bitcnt := 8 } := by
  have hs : b >>> 8 = 0#8 := BitVec.ushiftRight_eq_zero (by omega)
  simp [txByte, txSlots, txSlot_eq, sentByteEvents, bitsOf_eq, hs, ← BitVec.shiftRight_add]

/-- One slot of a received byte. -/
theorem rxSlot_eq (s : State) :
    rxSlot s = { s with
      dqOe := false
      trace := s.trace ++ readSlotEvents (atReadSample s).answer
      dqIn := s.dqIn.tail
      rxbit := (atReadSample s).answer
      shr := shiftInByte (atReadSample s).answer s.shr
      bitcnt := s.bitcnt + 1 } := by
  simp [rxSlot, readBit_eq, shiftIn]

/-- Bit `k` after a shift: the new bit at 7, and every other bit one place lower (R161). -/
theorem shiftInByte_getLsbD (r : Bit) (c : Byte) (k : Nat) :
    (shiftInByte r c).getLsbD k = if k = 7 then r else decide (k < 7) && c.getLsbD (k + 1) := by
  simp only [shiftInByte, BitVec.getLsbD_cons, BitVec.getLsbD_extractLsb', Nat.add_comm 1 k]

/-- The bits of a byte made by eight shifts: the first bit read is bit 0 (R161). -/
theorem bitsOf_shiftInByte (r0 r1 r2 r3 r4 r5 r6 r7 : Bit) (c : Byte) :
    bitsOf (shiftInByte r7 (shiftInByte r6 (shiftInByte r5 (shiftInByte r4
      (shiftInByte r3 (shiftInByte r2 (shiftInByte r1 (shiftInByte r0 c)))))))) =
    [r0, r1, r2, r3, r4, r5, r6, r7] := by
  simp [bitsOf_eq, shiftInByte_getLsbD, -BitVec.getLsbD_eq_getElem]

/-- Two bytes with the same bits are the same. -/
theorem bitsOf_injective {b c : Byte} (h : bitsOf b = bitsOf c) : b = c := by
  simp only [bitsOf_eq, List.cons.injEq, and_true] at h
  obtain ⟨h0, h1, h2, h3, h4, h5, h6, h7⟩ := h
  refine BitVec.eq_of_getLsbD_eq fun k hk => ?_
  interval_cases k <;> assumption

/-- The environment's answer at the sample of a read slot is the plan's first entry, if there is one. -/
theorem answer_atReadSample (s : State) {x : Bit} (h : s.dqIn[0]? = some x) : (atReadSample s).answer = x := by
  cases hq : s.dqIn with
  | nil => simp [hq] at h
  | cons y ys =>
    have : (atReadSample s).answer = y := answer_cons (bs := ys) _ (by simp [atReadSample, hq])
    simpa [this, hq] using h

/-- `n` slots of a received byte: `n` answers, shifted in one after another (R161). -/
theorem rxSlots_eq (n : Nat) (s : State) : ∃ bits : List Bit,
    bits.length = n ∧ (∀ k x, k < n → s.dqIn[k]? = some x → bits[k]? = some x) ∧
    rxSlots n s = { s with
      dqOe := s.dqOe && n == 0
      trace := s.trace ++ bits.flatMap readSlotEvents
      dqIn := s.dqIn.drop n
      shr := bits.foldl (fun c r => shiftInByte r c) s.shr
      bitcnt := s.bitcnt + BitVec.ofNat 4 n
      rxbit := bits.getLastD s.rxbit } := by
  induction n generalizing s with
  | zero => exact ⟨[], rfl, by simp, by simp [rxSlots]⟩
  | succ n ih =>
    obtain ⟨bits, hl, hq, he⟩ := ih (rxSlot s)
    refine ⟨(atReadSample s).answer :: bits, by simp [hl], ?_, ?_⟩
    · intro k x hk hx
      cases k with
      | zero => simp [answer_atReadSample s hx]
      | succ k => simpa using hq k x (by omega) (by simpa [rxSlot_eq] using hx)
    · rw [rxSlots, he]
      have hb : ∀ c : BitVec 4, c + 1 + BitVec.ofNat 4 n = c + BitVec.ofNat 4 (n + 1) := fun c => by
        rw [BitVec.add_assoc, BitVec.ofNat_add, BitVec.add_comm (BitVec.ofNat 4 n)]; rfl
      have hr : ∀ (x d : Bit), bits.getLastD x = (x :: bits).getLastD d := fun x d => by
        cases bits <;> rfl
      simp only [rxSlot_eq, hb, hr _ s.rxbit]
      simp

/-- Eight bits shifted in are the byte's bits, whatever was there before. -/
theorem bitsOf_foldl_shiftIn {bits : List Bit} (h : bits.length = 8) (c : Byte) :
    bitsOf (bits.foldl (fun c r => shiftInByte r c) c) = bits := by
  match bits, h with
  | [r0, r1, r2, r3, r4, r5, r6, r7], _ => exact bitsOf_shiftInByte r0 r1 r2 r3 r4 r5 r6 r7 c

/-- Bit `k` of a byte in its list of bits. -/
theorem bitsOf_getElem? (b : Byte) {k : Nat} (hk : k < 8) : (bitsOf b)[k]? = some (b.getLsbD k) := by
  simp [bitsOf, hk]

/-- `RX_BYTE` (R161): a byte `b` whose bits are the answers in time order, whatever they are. -/
theorem rxByte_eq (s : State) : ∃ b : Byte,
    (∀ k x, k < 8 → s.dqIn[k]? = some x → b.getLsbD k = x) ∧
    rxByte s = { s with
      dqOe := false
      trace := s.trace ++ receivedByteEvents b
      dqIn := s.dqIn.drop 8
      shr := b
      bitcnt := 8
      rxbit := b.getLsbD 7 } := by
  obtain ⟨bits, hl, hq, he⟩ := rxSlots_eq 8 { s with shr := 0, bitcnt := 0 }
  have hb := bitsOf_foldl_shiftIn hl 0
  generalize hx : bits.foldl (fun c r => shiftInByte r c) (0 : Byte) = b at hb
  refine ⟨b, fun k x hk hkx => ?_, ?_⟩
  · have := hq k x hk hkx
    rw [← hb, bitsOf_getElem? b hk] at this
    exact Option.some.inj this
  · have hlast : bits.getLastD s.rxbit = b.getLsbD 7 := by rw [← hb]; rfl
    rw [rxByte, he]
    simp only [hx, hlast, receivedByteEvents, hb]
    simp

end Sys2Proof.Machine
end

