-- ==== Sys2Proof/Laws/Sequencer.lean ====
section
/-! SUPPORT. What the bodies of the sequencer's states do, said once each. -/

namespace Sys2Proof.Machine

/-- The body of a reset state, whichever way the presence sample reads (R203, R207, R271). -/
theorem resetBody_eq (next : SeqState) (s : State) :
    resetBody next s = { s with
      dqOe := false
      trace := s.trace ++ resetEvents (atPresenceSample s).answer
      dqIn := s.dqIn.tail
      pres := !(atPresenceSample s).answer
      seq := if (atPresenceSample s).answer then .aborted else next } := by
  simp only [resetBody, resetDetect_eq]
  cases (atPresenceSample s).answer <;> simp [raiseFailure]

/-- A command byte, then the successor (R204, R205, R208). -/
theorem commandBody_eq (b : Byte) (next : SeqState) (s : State) :
    commandBody b next s = { s with
      dqOe := false
      trace := s.trace ++ sentByteEvents b
      shr := 0
      bitcnt := 8
      seq := next } := by
  simp [commandBody, txByte_eq]

/-- One poll (R206): leave on a 1, give up at the limit, otherwise wait. -/
theorem pollBody_eq (s : State) :
    pollBody s = { s with
      dqOe := false
      dqIn := s.dqIn.tail
      rxbit := (atReadSample s).answer
      pollcnt := s.pollcnt + 1
      trace := s.trace ++ readSlotEvents (atReadSample s).answer ++
        (if (atReadSample s).answer = true ∨ s.par.pollLimit = some (s.pollcnt + 1) then [] else [.rel s.par.tPoll])
      seq :=
        if (atReadSample s).answer then .reset2
        else if s.par.pollLimit = some (s.pollcnt + 1) then .timedOut else s.seq } := by
  simp only [pollBody, afterPoll, readBit_eq]
  cases (atReadSample s).answer
  · by_cases h : s.par.pollLimit = some (s.pollcnt + 1) <;> simp [h, raiseFailure, delay, emit]
  · simp

/-- `Validate` (R210): the checksum decides. -/
theorem validateBody_eq (s : State) :
    validateBody s = { s with
      crc := computeCrc s.spMessage
      rsValid := decide (computeCrc s.spMessage = s.spChecksum)
      rsRaw := if computeCrc s.spMessage = s.spChecksum then s.spRaw else 0
      seq := if computeCrc s.spMessage = s.spChecksum then .committed else .discarded } := by
  have h1 : State.spChecksum { s with crc := computeCrc s.spMessage } = s.spChecksum := rfl
  have h2 : State.spRaw { s with crc := computeCrc s.spMessage } = s.spRaw := rfl
  simp only [validateBody, h1, h2]
  by_cases h : computeCrc s.spMessage = s.spChecksum <;> simp [h, commitReading, raiseFailure, clearReading]

/-! ## Nine bytes -/

/-- The scratchpad and its count after bytes stored one after another (R209). -/
def storeAll (bs : List Byte) (p : Vector Byte 9 × BitVec 4) : Vector Byte 9 × BitVec 4 :=
  bs.foldl (fun q b => (q.1.setIfInBounds q.2.toNat b, q.2 + 1)) p

/-- Nine bytes from `BYTECNT` = 0 fill the scratchpad in order. -/
theorem storeAll_nine (b0 b1 b2 b3 b4 b5 b6 b7 b8 : Byte) (v : Vector Byte 9) :
    storeAll [b0, b1, b2, b3, b4, b5, b6, b7, b8] (v, 0) = (#v[b0, b1, b2, b3, b4, b5, b6, b7, b8], 9) := by
  have h : ∀ k : Fin 9, (storeAll [b0, b1, b2, b3, b4, b5, b6, b7, b8] (v, 0)).1[k.val]
      = #v[b0, b1, b2, b3, b4, b5, b6, b7, b8][k.val] := by
    intro k
    fin_cases k <;> simp [storeAll]
  refine Prod.ext (Vector.ext fun k hk => h ⟨k, hk⟩) rfl

/-- `n` bytes received: each answer in its place, whatever it is (R161, R209). -/
theorem receiveBytes_eq (n : Nat) (s : State) : ∃ bs : List Byte,
    bs.length = n ∧
    (∀ k x, k < 8 * n → s.dqIn[k]? = some x → (bs.getD (k / 8) 0).getLsbD (k % 8) = x) ∧
    receiveBytes n s = { s with
      dqOe := s.dqOe && n == 0
      trace := s.trace ++ bs.flatMap receivedByteEvents
      dqIn := s.dqIn.drop (8 * n)
      shr := bs.getLastD s.shr
      bitcnt := if n = 0 then s.bitcnt else 8
      rxbit := if n = 0 then s.rxbit else (bs.getLastD s.shr).getLsbD 7
      sp := (storeAll bs (s.sp, s.bytecnt)).1
      bytecnt := (storeAll bs (s.sp, s.bytecnt)).2 } := by
  induction n generalizing s with
  | zero => exact ⟨[], rfl, by simp, by simp [receiveBytes, storeAll]⟩
  | succ n ih =>
    obtain ⟨b, hb, he⟩ := rxByte_eq s
    obtain ⟨bs, hl, hq, hr⟩ := ih ((rxByte s).storeSp (rxByte s).shr)
    refine ⟨b :: bs, by simp [hl], fun k x hk hx => ?_, ?_⟩
    · by_cases hk8 : k < 8
      · rw [Nat.div_eq_of_lt hk8, Nat.mod_eq_of_lt hk8]
        exact hb k x hk8 hx
      · obtain ⟨j, rfl⟩ : ∃ j, k = j + 8 := ⟨k - 8, by omega⟩
        have := hq j x (by omega) (by simpa [he, Nat.add_comm] using hx)
        simpa using this
    · rw [receiveBytes, hr]
      have hlast : ∀ d : Byte, bs.getLastD b = (b :: bs).getLastD d := fun d => by cases bs <;> rfl
      simp only [he, storeSp_shr, hlast s.shr]
      rcases Nat.eq_zero_or_pos n with rfl | hn
      · have : bs = [] := List.length_eq_zero_iff.mp hl
        subst this
        simp [storeAll]
      · simp [storeAll, Nat.ne_of_gt hn, Nat.mul_add, Nat.add_comm]

/-- `ReadScratchpad` (R209): nine bytes, the answers in time order, whatever they are. -/
theorem readScratchpadBody_eq (s : State) : ∃ m : Vector Byte 9,
    (∀ k x, k < 72 → s.dqIn[k]? = some x → (m.toList.getD (k / 8) 0).getLsbD (k % 8) = x) ∧
    readScratchpadBody s = { s with
      dqOe := false
      trace := s.trace ++ sentByteEvents Config.cmdReadSp ++ m.toList.flatMap receivedByteEvents
      dqIn := s.dqIn.drop 72
      shr := m[8]
      bitcnt := 8
      bytecnt := 9
      sp := m
      rxbit := m[8].getLsbD 7
      seq := .validate } := by
  obtain ⟨bs, hl, hq, he⟩ := receiveBytes_eq 9 { txByte Config.cmdReadSp s with bytecnt := 0 }
  match bs, hl with
  | [b0, b1, b2, b3, b4, b5, b6, b7, b8], _ =>
    refine ⟨#v[b0, b1, b2, b3, b4, b5, b6, b7, b8], fun k x hk hx => hq k x hk (by simpa [txByte_eq] using hx), ?_⟩
    rw [readScratchpadBody, he]
    simp only [txByte_eq, storeAll_nine]
    simp

end Sys2Proof.Machine
end

