-- ==== Sys2Proof/Laws/Step.lean ====
section
/-! SUPPORT. What a step does, one lemma for each place its work comes from. -/

namespace Sys2Proof.Machine

variable {s : State}

/-- The host comes first. -/
theorem fetch_host {a : HostCommand} {rest : List (Option HostCommand)} (h : s.host = some a :: rest) :
    fetch s = .asked a.code := by simp [fetch, h]

/-- With the host idle a step looks at the bench. -/
theorem fetch_bench (h : HostIdle s) : fetch s = benchFetch s := by
  rcases h with h | ⟨rest, h⟩ <;> simp [fetch, h]

/-- A call is served when nothing is in progress. -/
theorem fetch_call {c : Code} {rest : List Code} (h : HostIdle s) (hb : s.bench = c :: rest) (hc : callable c = true)
    (hf : s.free = true) : fetch s = .called c := by
  simp [fetch_bench h, benchFetch, hb, hc, hf]

/-- A call waits while a transaction, a primitive or a delay is in progress. -/
theorem fetch_busy (h : HostIdle s) (hf : s.free = false) : fetch s = ownFetch s := by
  rw [fetch_bench h, benchFetch]
  split <;> simp [hf]

end Sys2Proof.Machine
end

