-- ==== Sys2Proof/Laws/Tick.lean ====
section
/-! SUPPORT. How steps compose at the two levels of R9, and what a phase does at each. -/

namespace Sys2Proof.Machine

/-! ## The symbol level -/

/-- Steps at the symbol level compose. -/
theorem symbolSteps_add (m n : Nat) (s : State) : symbolSteps (m + n) s = symbolSteps n (symbolSteps m s) := by
  induction m generalizing s with
  | zero => simp [symbolSteps]
  | succ m ih => rw [Nat.succ_add, symbolSteps, symbolSteps, ih]

/-- A step inside a primitive is a micro-operation. -/
theorem symbolStep_inside (s : State) (h : s.ph ≠ .idle) : symbolStep s = microStep s := by simp [symbolStep, h]

/-- A timed phase with its line mode: the `DELAY`, and the next phase. -/
theorem microStep_delay (s : State) (ht : s.ph.timed = true) (hm : s.dqOe = s.ph.drives) :
    microStep s = phaseEnded (delay s.phaseTime s) := by simp [microStep, ht, hm]

/-- A timed phase whose line mode is not there yet: `DRIVE_LOW` or `RELEASE`, and the phase stays. -/
theorem microStep_mode (s : State) (ht : s.ph.timed = true) (hm : s.dqOe ≠ s.ph.drives) :
    microStep s = { s with dqOe := s.ph.drives } := by
  cases hd : s.ph.drives <;> simp_all [microStep, driveLow, release]

/-- A timed phase at the symbol level, in one micro-operation or two: the line mode, the event, and the next phase (R9 a). -/
theorem symbolSteps_phase (s : State) (ht : s.ph.timed = true) :
    ∃ n, symbolSteps n s = phaseEnded (delay s.phaseTime { s with dqOe := s.ph.drives }) := by
  have hi : s.ph ≠ .idle := by rintro h; simp [h, Phase.timed] at ht
  by_cases hm : s.dqOe = s.ph.drives
  · refine ⟨1, ?_⟩
    rw [symbolSteps, symbolSteps, symbolStep_inside s hi, microStep_delay s ht hm, ← hm]
  · refine ⟨2, ?_⟩
    rw [symbolSteps, symbolSteps, symbolSteps, symbolStep_inside s hi, microStep_mode s ht hm,
      symbolStep_inside _ (by exact hi), microStep_delay _ (by exact ht) (by rfl)]
    rfl

/-! ## The tick level -/

/-- Ticks compose. -/
theorem ticks_add (m n : Nat) (s : State) : ticks (m + n) s = ticks n (ticks m s) := by
  induction m generalizing s with
  | zero => simp [ticks]
  | succ m ih => rw [Nat.succ_add, ticks, ticks, ih]

/-- The time of ticks composes. -/
theorem elapsed_add (m n : Nat) (s : State) : elapsed (m + n) s = elapsed m s + elapsed n (ticks m s) := by
  induction m generalizing s with
  | zero => simp [elapsed, ticks]
  | succ m ih => rw [Nat.succ_add, elapsed, elapsed, ticks, ih, Nat.add_assoc]

/-- `TMR` ticks bring `TMR` to 0 and change nothing else (R23). -/
theorem ticks_timed (n : Nat) (s : State) (h : s.tmr = n) :
    ticks n s = { s with tmr := 0 } ∧ elapsed n s = n := by
  induction n generalizing s with
  | zero => cases s; simp_all [ticks, elapsed]
  | succ n ih =>
    have ht : tick s = { s with tmr := n } := by simp [tick, h]
    obtain ⟨h1, h2⟩ := ih { s with tmr := n } rfl
    constructor
    · rw [ticks, ht, h1]
    · rw [elapsed, ht, h2, h]; simp [Nat.add_comm]

/-- From a state to another in ticks that take a time. -/
def TicksTo (s t : State) (us : Nat) : Prop := ∃ n, ticks n s = t ∧ elapsed n s = us

/-- No tick. -/
theorem TicksTo.refl (s : State) : TicksTo s s 0 := ⟨0, rfl, rfl⟩

/-- Ticks after ticks. -/
theorem TicksTo.trans {s t u : State} {a b : Nat} (h : TicksTo s t a) (k : TicksTo t u b) : TicksTo s u (a + b) := by
  obtain ⟨m, rfl, rfl⟩ := h
  obtain ⟨n, rfl, rfl⟩ := k
  exact ⟨m + n, ticks_add m n s, elapsed_add m n s⟩

/-- A phase runs out and the next begins at the same instant (R143). -/
theorem ticksTo_phaseEnded (s : State) : TicksTo s (enterPhase (phaseEnded { s with tmr := 0 })) s.tmr := by
  obtain ⟨h1, h2⟩ := ticks_timed s.tmr s rfl
  refine TicksTo.trans (b := 0) ⟨s.tmr, h1, h2⟩ ⟨1, ?_, ?_⟩
  · simp [ticks, tick]
  · simp [elapsed]

/-- A timed phase at the tick level, from its entry: its time, and the next phase entered (R143). -/
theorem ticksTo_phase (s : State) (ht : s.ph.timed = true) (h0 : s.tmr = 0) :
    TicksTo (enterPhase s) (enterPhase (phaseEnded (delay s.phaseTime { s with dqOe := s.ph.drives }))) s.phaseTime := by
  have e : ({ enterPhase s with tmr := 0 } : State) = delay s.phaseTime { s with dqOe := s.ph.drives } := by
    rw [enterPhase_timed s ht]
    simp [delay, emit, h0]
  have h := ticksTo_phaseEnded (enterPhase s)
  rw [e] at h
  simpa [enterPhase_timed s ht] using h

end Sys2Proof.Machine
end

