-- ==== Sys2Proof/Tests/Slice0.lean ====
section
/-! SUPPORT. The model's own tests: small facts whose expected values come from spec/ (the vectors of `95_test_vectors.md`, the tables of
`30_encoding.md`), and a witness for the hypotheses of each statement that has some. -/

namespace Sys2Proof.Tests

open Sys2Proof Sys2Proof.Machine

/-- A machine at rest with a poll delay of 100 µs, no poll limit, and planned answers. -/
def atRest (answers : List Bit) : State :=
  { State.reset with par := ⟨100, none, .operation, 1⟩, dqIn := answers }

/-- The same with a reading held, `0x0191` (program P2's start). -/
def holding (answers : List Bit) : State := { atRest answers with rsValid := true, rsRaw := 0x0191 }

/-- The same in a state of the sequencer. -/
def inState (q : SeqState) (answers : List Bit) : State := { holding answers with seq := q }

/-- Nine bytes in `SP`, in `Validate`. -/
def toValidate (m : Vector Byte 9) : State := { inState .validate [] with sp := m }

/-- A part of the next state. -/
def look {α : Type} (f : State → α) : Answer → Option α
  | .next s => some (f s)
  | .fault _ => none
  | .refused _ => none

/-- The operation a code decodes to. -/
def op (c : Code) : Option Instr := (decode c).toOption

/-! ## WellFormed -/

/-- R30: an invalid Reading with a raw value is refused. -/
theorem test_invalid_reading_with_a_raw_value_is_ill_formed : (Instr.decode ⟨false, 1⟩).wf = false := by decide

/-- … and its encoding is rejected by name. -/
theorem test_invalid_reading_with_a_raw_value_is_rejected :
    op (.func (.decode 0x00001#17)) = none := by decide

theorem test_invalid_reading_is_well_formed : (Instr.decode ⟨false, 0⟩).wf = true := by decide

/-! ## Decoding: every constructor, by an encoding written out from `30_encoding.md` -/

/-- R117. -/
theorem test_decode_driveLow : op (.calls [.setLineMode .output, .writeLine false]) = some .driveLow := by decide

theorem test_decode_release : op (.calls [.setLineMode .input]) = some .release := by decide

theorem test_decode_delay : op (.calls [.delayMicroseconds 435]) = some (.delay 435) := by decide

theorem test_decode_sample : op (.calls [.readLine]) = some .sample := by decide

/-- R134: the block never writes 1. -/
theorem test_decode_write_high_is_rejected : op (.calls [.setLineMode .output, .writeLine true]) = none := by decide

/-- R91. -/
theorem test_decode_resetDetect : op (.wave [.L 500, .Z 65, .S, .optZ 435]) = some .resetDetect := by decide

/-- R92. -/
theorem test_decode_w1 : op (.wave [.L 5, .Z 60]) = some .w1 := by decide

/-- R93. -/
theorem test_decode_w0 : op (.wave [.L 60, .Z 5]) = some .w0 := by decide

/-- R94. -/
theorem test_decode_readBit : op (.wave [.L 3, .Z 10, .S, .Z 52]) = some .readBit := by decide

/-- R114: all symbols of one kind have one length. -/
theorem test_decode_odd_slot_is_rejected : op (.wave [.L 6, .Z 59]) = none := by decide

/-- S-5: W1 W0 W1 W0 W0 W1 W0 W1. -/
theorem test_decode_txByte_A5 :
    op (.frame [.L 5, .Z 60, .L 60, .Z 5, .L 5, .Z 60, .L 60, .Z 5, .L 60, .Z 5, .L 5, .Z 60, .L 60, .Z 5, .L 5, .Z 60]) = some (.txByte 0xA5) := by decide

/-- S-4: the last slot is bit 7. -/
theorem test_decode_txByte_80 :
    op (.frame [.L 60, .Z 5, .L 60, .Z 5, .L 60, .Z 5, .L 60, .Z 5, .L 60, .Z 5, .L 60, .Z 5, .L 60, .Z 5, .L 5, .Z 60]) = some (.txByte 0x80) := by decide

/-- R96 with read slots. -/
theorem test_decode_rxByte :
    op (.frame [.L 3, .Z 10, .S, .Z 52, .L 3, .Z 10, .S, .Z 52, .L 3, .Z 10, .S, .Z 52, .L 3, .Z 10, .S, .Z 52, .L 3, .Z 10, .S, .Z 52, .L 3, .Z 10, .S, .Z 52, .L 3, .Z 10, .S, .Z 52, .L 3, .Z 10, .S, .Z 52]) = some .rxByte := by decide

theorem test_decode_seven_slots_are_rejected :
    op (.frame [.L 60, .Z 5, .L 60, .Z 5, .L 60, .Z 5, .L 60, .Z 5, .L 60, .Z 5, .L 60, .Z 5, .L 60, .Z 5]) = none := by decide

/-- R97. -/
theorem test_decode_selectAll : op (.cmd8 0xCC) = some .selectAll := by decide

theorem test_decode_convert : op (.cmd8 0x44) = some .convert := by decide

theorem test_decode_readSp : op (.cmd8 0xBE) = some .readSp := by decide

/-- R110. -/
theorem test_decode_other_command_is_rejected : op (.cmd8 0x55) = none := by decide

/-- R118. -/
theorem test_decode_crcStep : op (.func (.crcStep [0x00, 0x50])) = some (.crcStep 0x00 0x50) := by decide

theorem test_decode_computeCrc : op (.func (.computeCrc [1, 2])) = some (.computeCrc [1, 2]) := by decide

/-- R106: bit 16 is the valid flag (log 3). -/
theorem test_decode_decode : op (.func (.decode 0x1FF5E#17)) = some (.decode ⟨true, 0xFF5E⟩) := by decide

theorem test_decode_latest : op (.func .latest) = some .latest := by decide

/-- R108. -/
theorem test_decode_acquire : op (.host1 .start) = some .acquire := by decide

theorem test_decode_reset : op (.host1 .rst) = some .reset := by decide

/-- R107. -/
theorem test_decode_seqIdle : op (.seq4 0) = some .seqIdle := by decide

theorem test_decode_seqReset1 : op (.seq4 1) = some .seqReset1 := by decide

theorem test_decode_seqSelectAll1 : op (.seq4 2) = some .seqSelectAll1 := by decide

theorem test_decode_seqStartConversion : op (.seq4 3) = some .seqStartConversion := by decide

theorem test_decode_seqConversionWait : op (.seq4 4) = some .seqConversionWait := by decide

theorem test_decode_seqReset2 : op (.seq4 5) = some .seqReset2 := by decide

theorem test_decode_seqSelectAll2 : op (.seq4 6) = some .seqSelectAll2 := by decide

theorem test_decode_seqReadScratchpad : op (.seq4 7) = some .seqReadScratchpad := by decide

theorem test_decode_seqValidate : op (.seq4 8) = some .seqValidate := by decide

theorem test_decode_seqCommitted : op (.seq4 9) = some .seqCommitted := by decide

theorem test_decode_seqDiscarded : op (.seq4 10) = some .seqDiscarded := by decide

theorem test_decode_seqAborted : op (.seq4 11) = some .seqAborted := by decide

theorem test_decode_seqTimedOut : op (.seq4 12) = some .seqTimedOut := by decide

/-- R113. -/
theorem test_decode_seq_13_is_rejected : op (.seq4 13) = none := by decide

/-- `98_reader.md`: the spec's words are right, a command is eight bits (log 4). -/
theorem test_table_word_with_the_readers_width_bit : decodeTableWord 16 0x1CC = some .selectAll := by decide

theorem test_table_word_that_is_no_row : decodeTableWord 8 0x0D = none ∧ decodeTableWord 8 0x33 = none := by decide

/-! ## Operations -/

/-- B-7 and R130. -/
theorem test_driveLow_then_delay : look State.dqOe (exec .driveLow (atRest [])) = some true := by decide

theorem test_release : look State.dqOe (exec .release { atRest [] with dqOe := true }) = some false := by decide

/-- B-7. -/
theorem test_delay_low : look State.trace (exec (.delay 7) { atRest [] with dqOe := true }) = some [.low 7] := by decide

/-- B-7: a zero-length event. -/
theorem test_delay_zero : look State.trace (exec (.delay 0) (atRest [])) = some [.rel 0] := by decide

/-- R133: "line high, result 1". -/
theorem test_sample_high :
    look (fun s => (s.trace, s.res)) (exec .sample (atRest [true])) = some ([.smp true], .bit true) := by decide

/-- U4. -/
theorem test_sample_while_driving : look State.res (exec .sample { atRest [true] with dqOe := true }) = none := by decide

/-- B-1. -/
theorem test_resetDetect_presence :
    look (fun s => (s.trace, s.pres, s.dqOe)) (exec .resetDetect (atRest [false]))
      = some ([.low 500, .rel 65, .smp false, .rel 435], true, false) := by decide

/-- B-2. -/
theorem test_resetDetect_failure :
    look (fun s => (s.trace, s.pres)) (exec .resetDetect { atRest [true] with pres := true })
      = some ([.low 500, .rel 65, .smp true], false) := by decide

/-- B-3. -/
theorem test_w1 : look State.trace (exec .w1 (atRest [])) = some [.low 5, .rel 60] := by decide

/-- B-4. -/
theorem test_w0 : look State.trace (exec .w0 (atRest [])) = some [.low 60, .rel 5] := by decide

/-- B-5. -/
theorem test_readBit_one :
    look (fun s => (s.trace, s.rxbit)) (exec .readBit (atRest [true]))
      = some ([.low 3, .rel 10, .smp true, .rel 52], true) := by decide

/-- B-6. -/
theorem test_readBit_zero :
    look (fun s => (s.res, s.rxbit)) (exec .readBit { atRest [false] with rxbit := true }) = some (.bit false, false) := by decide

/-- S-3. -/
theorem test_txByte_01 :
    look (fun s => (s.trace.take 4, s.shr, s.bitcnt)) (exec (.txByte 0x01) (atRest []))
      = some ([.low 5, .rel 60, .low 60, .rel 5], 0, 8) := by decide

/-- R163. -/
theorem test_txByte_BE_time : look (fun s => duration s.trace) (exec (.txByte 0xBE) (atRest [])) = some 520 := by decide

/-- S-11. -/
theorem test_rxByte_91 :
    look (fun s => (s.shr, s.bitcnt, s.rxbit)) (exec .rxByte (atRest [true, false, false, false, true, false, false, true]))
      = some (0x91, 8, true) := by decide

/-- S-16. -/
theorem test_rxByte_5E :
    look State.res (exec .rxByte (atRest [false, true, true, true, true, false, true, false])) = some (.byte 0x5E) := by decide

/-- The low times of a trace. -/
def lowTimes : List Event → List Nat
  | [] => []
  | .low n :: es => n :: lowTimes es
  | _ :: es => lowTimes es

/-- S-8. -/
theorem test_selectAll_low_times :
    look (fun s => lowTimes s.trace) (exec .selectAll (atRest [])) = some [60, 60, 5, 5, 60, 60, 5, 5] := by decide

/-- S-9. -/
theorem test_convert_low_times :
    look (fun s => lowTimes s.trace) (exec .convert (atRest [])) = some [60, 60, 5, 60, 60, 60, 5, 60] := by decide

/-- S-10. -/
theorem test_readSp_low_times :
    look (fun s => lowTimes s.trace) (exec .readSp (atRest [])) = some [60, 5, 5, 5, 5, 5, 60, 5] := by decide

/-- R183. -/
theorem test_crcStep : look State.res (exec (.crcStep 0x00 0x50) (atRest [])) = some (.byte 0xDB) := by decide

theorem test_crcStep_equal_operands : look State.res (exec (.crcStep 0x35 0x35) (atRest [])) = some (.byte 0) := by decide

/-- K-9. -/
theorem test_computeCrc_K9 :
    look State.res (exec (.computeCrc [0x91, 0x01, 0x4B, 0x46, 0x7F, 0xFF, 0x0F, 0x10]) (atRest []))
      = some (.byte 0x25) := by decide

/-- K-19. -/
theorem test_computeCrc_K19 :
    look State.crc (exec (.computeCrc [0x31, 0x32, 0x33, 0x34, 0x35, 0x36, 0x37, 0x38, 0x39]) (atRest []))
      = some 0xA1 := by decide

/-- T-18. -/
theorem test_decode_negative :
    look State.res (exec (.decode ⟨true, 0xFF5E⟩) (atRest [])) = some (.temperature (.sixteenths (-162))) := by decide

/-- T-1. -/
theorem test_decode_invalid : look State.res (exec (.decode ⟨false, 0⟩) (atRest [])) = some (.temperature .invalid) := by decide

/-- T-6. -/
theorem test_latest_valid : look State.res (exec .latest (holding [])) = some (.temperature (.sixteenths 401)) := by decide

/-- T-1. -/
theorem test_latest_after_reset : look State.res (exec .latest State.reset) = some (.temperature .invalid) := by decide

/-- R201. -/
theorem test_acquire_from_aborted : look State.seq (exec .acquire (inState .aborted [])) = some .reset1 := by decide

/-- Q-11. -/
theorem test_acquire_while_busy : look State.seq (exec .acquire (inState .readScratchpad [])) = some .readScratchpad := by decide

/-- R311, R312. -/
theorem test_reset_while_busy :
    look (fun s => (s.seq, s.rsValid, s.dqOe, s.trace, s.dqIn))
      (exec .reset { inState .reset1 [true] with dqOe := true, trace := [.low 500] })
      = some (.idle, false, false, [], []) := by decide

/-! ## The sequencer's states -/

theorem test_seqIdle_stays : look State.seq (exec .seqIdle (inState .idle [])) = some .idle := by decide

/-- Q-1. -/
theorem test_seqReset1_aborts :
    look (fun s => (s.seq, s.rsValid, s.rsRaw, s.pres)) (exec .seqReset1 (inState .reset1 [true]))
      = some (.aborted, true, 0x0191, false) := by decide

theorem test_seqReset1_goes_on : look State.seq (exec .seqReset1 (inState .reset1 [false])) = some .selectAll1 := by decide

theorem test_seqSelectAll1 :
    look (fun s => (s.seq, lowTimes s.trace)) (exec .seqSelectAll1 (inState .selectAll1 []))
      = some (.startConversion, [60, 60, 5, 5, 60, 60, 5, 5]) := by decide

theorem test_seqStartConversion :
    look (fun s => (s.seq, s.pollcnt, lowTimes s.trace))
      (exec .seqStartConversion { inState .startConversion [] with pollcnt := 3 })
      = some (.conversionWait, 0, [60, 60, 5, 60, 60, 60, 5, 60]) := by decide

/-- P1: a poll that reads 0, then the delay. -/
theorem test_seqConversionWait_stays :
    look (fun s => (s.seq, s.pollcnt, s.trace)) (exec .seqConversionWait (inState .conversionWait [false]))
      = some (.conversionWait, 1, [.low 3, .rel 10, .smp false, .rel 52, .rel 100]) := by decide

/-- P6 (b): no delay after the last poll. -/
theorem test_seqConversionWait_times_out :
    look (fun s => (s.seq, s.trace.length))
      (exec .seqConversionWait { inState .conversionWait [false] with pollcnt := 2, par := ⟨100, some 3, .operation, 1⟩ })
      = some (.timedOut, 4) := by decide

/-- Q-2. -/
theorem test_seqReset2_aborts : look State.seq (exec .seqReset2 (inState .reset2 [true])) = some .aborted := by decide

theorem test_seqReset2_goes_on : look State.seq (exec .seqReset2 (inState .reset2 [false])) = some .selectAll2 := by decide

theorem test_seqSelectAll2 : look State.seq (exec .seqSelectAll2 (inState .selectAll2 [])) = some .readScratchpad := by decide

/-- P1: SP after the 72 slots. -/
theorem test_seqReadScratchpad :
    look (fun s => (s.seq, s.sp.toList, s.bytecnt))
      (exec .seqReadScratchpad (inState .readScratchpad ([0x91, 0x01, 0x4B, 0x46, 0x7F, 0xFF, 0x0F, 0x10, 0x25].flatMap bitsOf)))
      = some (.validate, [0x91, 0x01, 0x4B, 0x46, 0x7F, 0xFF, 0x0F, 0x10, 0x25], 9) := by decide

/-- P4. -/
theorem test_seqValidate_commits :
    look (fun s => (s.seq, s.rsValid, s.rsRaw))
      (exec .seqValidate (toValidate #v[0x5E, 0xFF, 0x4B, 0x46, 0x7F, 0xFF, 0x02, 0x10, 0xB6]))
      = some (.committed, true, 0xFF5E) := by decide

/-- P7 (b): the source's literal 0x41 is discarded. -/
theorem test_seqValidate_discards :
    look (fun s => (s.seq, s.rsValid, s.rsRaw))
      (exec .seqValidate (toValidate #v[0x50, 0x05, 0x4B, 0x46, 0x7F, 0xFF, 0x0C, 0x10, 0x41]))
      = some (.discarded, false, 0) := by decide

theorem test_seqCommitted_stays : look State.seq (exec .seqCommitted (inState .committed [])) = some .committed := by decide

theorem test_seqDiscarded_stays : look State.seq (exec .seqDiscarded (inState .discarded [])) = some .discarded := by decide

theorem test_seqAborted_stays : look State.seq (exec .seqAborted (inState .aborted [])) = some .aborted := by decide

theorem test_seqTimedOut_stays : look State.seq (exec .seqTimedOut (inState .timedOut [])) = some .timedOut := by decide

/-- R113: the row does not enter its state. -/
theorem test_seqTimedOut_is_not_entered_by_its_row :
    look State.seq (exec .seqTimedOut (inState .conversionWait [])) = some .conversionWait := by decide

/-! ## Steps and ticks -/

theorem test_step_takes_start :
    look (fun s => (s.seq, s.host)) (step { atRest [] with host := [some .start, none] }) = some (.reset1, [none]) := by decide

/-- R111, R216. -/
theorem test_start_while_busy_is_ignored :
    look (fun s => (s.seq, s.trace)) (step { inState .conversionWait [] with host := [some .start] })
      = some (.conversionWait, []) := by decide

theorem test_step_runs_placed_word :
    look (fun s => (s.seq, s.trace.length)) (step (State.reset.withFetchWord 8 0x44)) = some (.idle, 16) := by decide

theorem test_step_runs_placed_state : look State.seq (step (State.reset.withFetchWord 8 2)) = some .startConversion := by decide

/-- The same machine at another level. -/
def atLevel (l : Config.Level) (s : State) : State := { s with par := { s.par with level := l } }

/-- A machine whose bench calls an operation, at a level. -/
def calling (l : Config.Level) (c : Code) (answers : List Bit) : State := { atLevel l (atRest answers) with bench := [c] }

/-- R216, R318: a call waits for the transaction. -/
theorem test_call_waits_for_the_transaction :
    look (fun s => (s.seq, s.bench)) (step { inState .selectAll1 [] with bench := [.cmd8 0x44] })
      = some (.startConversion, [.cmd8 0x44]) := by decide

/-- R36, R107: `status` is no input. -/
theorem test_no_call_of_a_sequencer_state :
    look (fun s => (s.seq, s.trace)) (step (calling .operation (.seq4 12) [])) = some (.idle, []) := by decide

/-- R9 (a): the micro-operations of a `READ_BIT`, one a step. -/
theorem test_symbol_level_read_slot :
    look (fun s => (s.dqOe, s.trace)) (step (calling .symbol (.wave [.L 3, .Z 10, .S, .Z 52]) [true])) = some (true, []) ∧
    look (fun s => (s.dqOe, s.trace)) (runSteps 2 (calling .symbol (.wave [.L 3, .Z 10, .S, .Z 52]) [true]))
      = some (true, [.low 3]) ∧
    look (fun s => (s.dqOe, s.trace)) (runSteps 3 (calling .symbol (.wave [.L 3, .Z 10, .S, .Z 52]) [true]))
      = some (false, [.low 3]) ∧
    look (fun s => (s.res, s.rxbit, s.trace)) (runSteps 6 (calling .symbol (.wave [.L 3, .Z 10, .S, .Z 52]) [true]))
      = some (.bit true, true, [.low 3, .rel 10, .smp true, .rel 52]) := by decide

/-- B-5 at the tick level: 3 ticks of `RD_LOW` after the step that enters it, then `RD_WAIT`. -/
theorem test_tick_level_read_slot :
    look (fun s => (s.ph, s.tmr, s.dqOe)) (step (calling .tick (.wave [.L 3, .Z 10, .S, .Z 52]) [true]))
      = some (.rdLow, 3, true) ∧
    look (fun s => (s.ph, s.tmr, s.dqOe)) (runSteps 5 (calling .tick (.wave [.L 3, .Z 10, .S, .Z 52]) [true]))
      = some (.rdWait, 10, false) := by decide

/-- B-5 at the tick level: the end, 65 µs and four changes of phase after the beginning. -/
theorem test_tick_level_read_slot_ends :
    look (fun s => (s.ph, s.tmr, s.use, s.res)) (runSteps (1 + 65 + 3) (calling .tick (.wave [.L 3, .Z 10, .S, .Z 52]) [true]))
      = some (.rdRem, 0, .read, .none) ∧
    look (fun s => (s.ph, s.tmr, s.use, s.res)) (runSteps (1 + 65 + 4) (calling .tick (.wave [.L 3, .Z 10, .S, .Z 52]) [true]))
      = some (.idle, 0, .sequencer, .bit true) := by decide

/-- R132 at the tick level. -/
theorem test_tick_level_delay :
    look (fun s => (s.tmr, s.trace)) (step (calling .tick (.calls [.delayMicroseconds 7]) [])) = some (7, [.rel 7]) ∧
    look (fun s => (s.tmr, s.trace)) (runSteps 3 (calling .tick (.calls [.delayMicroseconds 7]) [])) = some (5, [.rel 7]) := by
  decide

/-- R143. -/
theorem test_tick_starts_reset : (tick (inState .reset1 [])).ph = .rstLow ∧ (tick (inState .reset1 [])).tmr = 500 := by decide

/-- R23. -/
theorem test_tick_counts : (tick { inState .reset1 [] with ph := .rstLow, tmr := 500 }).tmr = 499 := by decide

/-- P2: `present` = [no]. -/
theorem test_fixture_no_presence : envRef [false] [] [] [.low 500, .rel 65] = true := by decide

theorem test_fixture_presence : envRef [true] [] [] [.low 500, .rel 65] = false := by decide

theorem test_fixture_loopback :
    envLoop [.low 60, .rel 5, .low 5, .rel 60, .low 3, .rel 10, .smp false, .rel 52, .low 3, .rel 10] = true := by decide

/-! ## Witnesses: the hypotheses of the statements can be met -/

/-- A machine whose host does one thing. -/
def asked (a : HostCommand) : State := { atRest [] with host := [some a] }

theorem witness_StepRunsTheOperationAskedFor_host :
    (asked .rst).host = some .rst :: [] ∧ decode HostCommand.rst.code = .ok .reset ∧
    decode HostCommand.start.code = .ok .acquire ∧ decode HostCommand.latest.code = .ok .latest := ⟨rfl, rfl, rfl, rfl⟩

theorem witness_StepRunsTheOperationAskedFor_call :
    let s := calling .operation (.cmd8 0xCC) []
    HostIdle s ∧ s.bench = .cmd8 0xCC :: [] ∧ callable (.cmd8 0xCC) = true ∧ s.free = true ∧
    decode (.cmd8 0xCC) = .ok .selectAll ∧ s.par.level = .operation :=
  ⟨.inl rfl, rfl, rfl, rfl, rfl, rfl⟩

theorem witness_StepLetsAPrimitiveFinish :
    let s : State := { atLevel .tick (atRest []) with ph := .rstLow, tmr := 3, use := .reset }
    s.free = false ∧ (∃ t, step { s with bench := [] } = .next t) ∧ (inState .validate []).busy = true :=
  ⟨by decide, ⟨_, rfl⟩, by decide⟩

theorem witness_StepRunsTheSequencerState_operation :
    let s := inState .reset1 [false]
    HostIdle s ∧ s.bench = [] ∧ s.par.level = .operation ∧ s.ph = .idle :=
  ⟨.inl rfl, rfl, rfl, rfl⟩

theorem witness_StepRunsTheSequencerState_symbol_and_tick :
    let s (l : Config.Level) : State := { atLevel l (inState .reset1 []) with host := [none], bench := [.cmd8 0xCC] }
    (HostIdle (s .symbol) ∧ (s .symbol).free = false ∧ (s .symbol).par.level = .symbol) ∧
    (HostIdle (s .tick) ∧ (s .tick).free = false ∧ (s .tick).par.level = .tick) :=
  ⟨⟨.inr ⟨[], rfl⟩, rfl, rfl⟩, .inr ⟨[], rfl⟩, rfl, rfl⟩

theorem witness_SymbolStepIsOneMicroOperation :
    let s := atLevel .symbol (inState .reset1 [])
    s.wf = true ∧ s.par.level = .symbol ∧ fetch s ≠ .asked (.host1 .rst) ∧ ∃ t, step s = .next t :=
  ⟨by decide, rfl, by decide, _, rfl⟩

theorem witness_StepRefusesWhatIsNoOperation :
    let s := calling .operation (.cmd8 0x33) []
    HostIdle s ∧ s.bench = .cmd8 0x33 :: [] ∧ callable (.cmd8 0x33) = true ∧ s.free = true ∧
    decode (.cmd8 0x33) = .error .unknownCommandByte :=
  ⟨.inl rfl, rfl, rfl, rfl, rfl⟩

theorem witness_PlacedTableWordRunsNext :
    decodeTableWord 8 0xCC = some .selectAll ∧ decodeTableWord 8 12 = some .seqTimedOut ∧ Instr.selectAll.format = .cmd8 ∧
    (atRest []).busy = false ∧ Instr.seqTimedOut.format = .seq4 := by
  decide

theorem witness_DecodeAfterEncodeIsTheOperation : (Instr.decode ⟨true, 0x8000⟩).wf = true := by decide

theorem witness_OnlyEncodingsDecode : decode (.wave [.L 5, .Z 60]) = .ok .w1 := rfl

theorem witness_DelayIsAnEventAndACountdown :
    (atLevel .tick (atRest [])).par.level = .tick ∧ 500 ≤ 500 ∧ Phase.rstLow.timed = true ∧
    State.phaseTime { atRest [] with ph := .rstLow } = 500 := by decide

theorem witness_SymbolsAndBytesLastTheirTime :
    (∃ t, exec .resetDetect (atRest [true]) = .next t ∧ t.res ≠ .presence .success) ∧
    (∃ t, exec .resetDetect (atRest [false]) = .next t ∧ t.res = .presence .success) ∧
    (∃ t, exec .w0 (atRest []) = .next t) ∧ ∃ t, exec (.txByte 0) (atRest []) = .next t :=
  ⟨⟨_, rfl, by decide⟩, ⟨_, rfl, by decide⟩, ⟨_, rfl⟩, _, rfl⟩

theorem witness_SampleReadsTheReleasedLine :
    (atRest []).dqOe = false ∧ (driveLow (atRest [])).dqOe = true ∧ (atRest []).dqIn = [] ∧
    (atRest [true]).dqIn = true :: [] := by
  decide

theorem witness_OperationsReleaseTheLine :
    Instr.w0.format ≠ .micro ∧ Instr.w0 ≠ .reset ∧ ∃ t, exec .w0 (atRest []) = .next t :=
  ⟨by decide, by decide, _, rfl⟩

theorem witness_LoopbackReturnsTheByteSent :
    ∃ t u, (atRest (bitsOf 0xA5)).trace = [] ∧ exec (.txByte 0xA5) (atRest (bitsOf 0xA5)) = .next t ∧
      exec .rxByte t = .next u ∧ follows envLoop t.trace (u.trace.drop t.trace.length) = true :=
  ⟨_, _, rfl, rfl, rfl, by decide⟩

theorem witness_ChecksumIsLinear : ([0x91, 0x01] : List Byte).length = ([0xFF, 0x00] : List Byte).length := rfl

theorem witness_ChecksumDetectsShortBursts :
    ([0x91, 0x01, 0x4B, 0x46, 0x7F, 0xFF, 0x0F, 0x10, 0x25] : List Byte).length = 9 ∧
    computeCrc [0x91, 0x01, 0x4B, 0x46, 0x7F, 0xFF, 0x0F, 0x10, 0x25] = 0 ∧ (0xFF : Byte) ≠ 0 ∧ (1 : Byte) ≠ 0 ∧ 64 ≤ 64 := by
  decide

theorem witness_DecodeCornerCases :
    12 ≤ 12 ∧ 12 ≤ 15 ∧ 15 ≤ 15 ∧ ((0xFC90 : Raw).extractLsb' 11 5 = 0x1F#5) ∧ ((0x0191 : Raw).extractLsb' 11 5 = 0#5) := by
  decide

theorem witness_OutputsAreFunctionsOfState : (atRest []).wf = true ∧ (atRest []).outputs.tempValid = false := by decide

theorem witness_AcquireStartsAtRestAndIsIgnoredWhileBusy :
    (inState .reset1 []).busy = true ∧ (inState .validate []).busy = true ∧
    (inState .idle []).seq = .idle ∧ (inState .committed []).seq = .committed ∧ (inState .discarded []).seq = .discarded ∧
    (inState .aborted []).seq = .aborted ∧ (inState .timedOut []).seq = .timedOut := by
  decide

theorem witness_ConversionWaitPollsOnce :
    let limit (n : Nat) (a : Bit) : State := { inState .conversionWait [a] with pollcnt := 2, par := ⟨0, some n, .operation, 1⟩ }
    (atReadSample (limit 3 true)).answer = true ∧ (atReadSample (limit 3 false)).answer = false ∧
    (limit 3 false).par.pollLimit = some ((limit 3 false).pollcnt + 1) ∧
    (limit 4 false).par.pollLimit ≠ some ((limit 4 false).pollcnt + 1) ∧ (limit 3 false).seq = .conversionWait := by
  decide

theorem witness_ValidateCommitsOrDiscards :
    let m : Vector Byte 9 := #v[0x91, 0x01, 0x4B, 0x46, 0x7F, 0xFF, 0x0F, 0x10, 0x25]
    let w : Vector Byte 9 := #v[0x91, 0x01, 0x4B, 0x46, 0x7F, 0xFF, 0x0F, 0x10, 0x24]
    computeCrc [m[0], m[1], m[2], m[3], m[4], m[5], m[6], m[7]] = m[8] ∧
    computeCrc [w[0], w[1], w[2], w[3], w[4], w[5], w[6], w[7]] ≠ w[8] := by
  decide

theorem witness_EveryOperationCompletes : (Instr.sample = .sample → (atRest []).dqOe = false) := fun _ => rfl

theorem witness_EveryStepKeepsTheInvariant :
    (inState .reset1 [true]).wf = true ∧ ∃ t, step (inState .reset1 [true]) = .next t :=
  ⟨by decide, _, rfl⟩

theorem witness_EveryStepKeepsTheInvariant_in_a_primitive :
    let s : State := { inState .readScratchpad [true] with
      ph := .rdSample, bitcnt := 7, bytecnt := 8, par := ⟨0, none, .tick, 1⟩ }
    s.wf = true ∧ s.quiet ∧ (∀ c, fetch s = .called c → decode c ≠ .ok .driveLow) ∧ ∃ t, step s = .next t := by
  refine ⟨by decide, ?_, ?_, _, rfl⟩
  · intro h
    cases h
  · intro c h
    cases h

theorem witness_EveryStepKeepsTheInvariant_quiet : (inState .reset1 []).quiet := fun _ => rfl

theorem witness_ParametersNeverChange : ∃ t, step (inState .validate []) = .next t := ⟨_, rfl⟩

theorem witness_OnlyValidateWritesTheReading :
    (∃ t, exec .seqReset1 (inState .reset1 [true]) = .next t) ∧ Instr.seqReset1 ≠ .seqValidate ∧ Instr.seqReset1 ≠ .reset ∧
    (inState .reset1 []).seq ≠ .validate :=
  ⟨⟨_, rfl⟩, by decide, by decide, by decide⟩

theorem witness_EveryTransitionIsInTheTable :
    (inState .reset1 [true]).wf = true ∧ (∃ t, step (inState .reset1 [true]) = .next t) ∧
    fetch (inState .reset1 [true]) ≠ .asked (.host1 .rst) ∧
    (asked .rst).wf = true ∧ (∃ t, step (asked .rst) = .next t) ∧ fetch (asked .rst) = .asked (.host1 .rst) :=
  ⟨by decide, ⟨_, rfl⟩, by decide, by decide, ⟨_, rfl⟩, by decide⟩

theorem witness_EverySampleReadsTheOracle :
    (atRest []).dqIn = [] ∧ Instr.readBit ≠ .reset ∧ ∃ t, exec .readBit (atRest []) = .next t :=
  ⟨rfl, by decide, _, rfl⟩

theorem witness_ReturnedValueDisturbsNoTransaction :
    Instr.seqReset1.format = .seq4 ∧ (∃ t, exec .seqReset1 (inState .reset1 [true]) = .next t) ∧
    (inState .reset1 []).use = .sequencer :=
  ⟨rfl, ⟨_, rfl⟩, rfl⟩

/-- A resting machine whose host asserts `start`. -/
def starting (limit : Option Nat) (answers : List Bit) : State :=
  { holding answers with seq := .committed, par := ⟨100, limit, .operation, 1⟩, host := [some .start] }

theorem starting_starts (limit : Option Nat) (answers : List Bit) : StartsTransaction (starting limit answers) :=
  ⟨rfl, rfl, rfl, rfl, rfl⟩

/-- Program P1's nine bytes. -/
def bytesP1 : Vector Byte 9 := #v[0x91, 0x01, 0x4B, 0x46, 0x7F, 0xFF, 0x0F, 0x10, 0x25]

theorem witness_TransactionCommitsOrDiscards :
    let s := starting none (false :: (List.replicate 2 false ++ true :: false :: (bytesP1.toList.flatMap bitsOf ++ [])))
    StartsTransaction s ∧ (∀ limit, s.par.pollLimit = some limit → 2 < limit) ∧
    computeCrc (bytesP1.toList.take 8) = bytesP1[8] ∧
    computeCrc ((bytesP1.set 8 0x24).toList.take 8) ≠ (bytesP1.set 8 0x24)[8] := by
  refine ⟨starting_starts _ _, fun limit h => ?_, by decide, by decide⟩
  cases h

theorem witness_TransactionCommitsOrDiscards_at_the_limit :
    let s := starting (some 1) (false :: (List.replicate 0 false ++ true :: false :: (bytesP1.toList.flatMap bitsOf ++ [])))
    StartsTransaction s ∧ (∀ limit, s.par.pollLimit = some limit → 0 < limit) := by
  refine ⟨starting_starts _ _, fun limit h => ?_⟩
  cases h
  decide

theorem witness_TransactionAbortsWithoutPresence :
    (StartsTransaction (starting none [true]) ∧ (starting none [true]).dqIn = true :: []) ∧
    (∀ limit, (starting (some 2) [true]).par.pollLimit = some limit → 1 < limit) ∧
    StartsTransaction (starting (some 2) (false :: (List.replicate 1 false ++ true :: true :: []))) := by
  refine ⟨⟨starting_starts _ _, rfl⟩, fun limit h => ?_, starting_starts _ _⟩
  cases h
  decide

theorem witness_TransactionTimesOutAtThePollLimit :
    let s := starting (some (0 + 1)) (false :: (List.replicate (0 + 1) false ++ []))
    StartsTransaction s ∧ s.par.pollLimit = some (0 + 1) ∧ s.dqIn = false :: (List.replicate (0 + 1) false ++ []) :=
  ⟨starting_starts _ _, rfl, rfl⟩

theorem witness_StuckDeviceStallsTheSequencer :
    let s := inState .conversionWait (List.replicate 3 false ++ [])
    RunsAlone s ∧ s.seq = .conversionWait ∧ s.par.pollLimit = none ∧ s.dqIn = List.replicate 3 false ++ [] :=
  ⟨⟨rfl, rfl, rfl, rfl⟩, rfl, rfl, rfl⟩

theorem witness_TickLevelRefinesSymbolLevel :
    (inState .readScratchpad []).ph = .idle ∧ (inState .readScratchpad []).tmr = 0 ∧
    (inState .readScratchpad []).use = .sequencer ∧
    decode (.seq4 (inState .readScratchpad []).seq.code) = .ok .seqReadScratchpad ∧
    ∃ t, exec .seqReadScratchpad (inState .readScratchpad []) = .next t :=
  ⟨rfl, rfl, rfl, rfl, _, rfl⟩

theorem witness_TickLevelRefinesSymbolLevel_call :
    let s (l : Config.Level) := atLevel l (atRest [])
    Instr.rxByte.format ≠ .seq4 ∧ Instr.rxByte.format ≠ .host1 ∧ (s .symbol).par.level = .symbol ∧ (s .tick).par.level = .tick ∧
    (∃ t u, exec .rxByte (s .symbol) = .next t ∧ runCall .rxByte (s .symbol) = .next u) ∧
    ∃ t u, exec .rxByte (s .tick) = .next t ∧ runCall .rxByte (s .tick) = .next u :=
  ⟨by decide, by decide, rfl, rfl, ⟨_, _, rfl, rfl⟩, _, _, rfl, rfl⟩

theorem witness_InternalRegistersAreNeverSeen : StartsTransaction (starting none []) := starting_starts _ _

theorem witness_ResetDetectFindsPresenceOrFails :
    (atPresenceSample (atRest [true])).answer = true ∧ (atPresenceSample (atRest [false])).answer = false := by decide

theorem witness_ResetStatesGoOnOrAbort :
    (atPresenceSample (inState .reset1 [true])).answer = true ∧ (atPresenceSample (inState .reset2 [false])).answer = false := by
  decide

theorem witness_ReceivedByteComesLeastSignificantBitFirst :
    (atRest [true, false, false, false, true, false, false, true]).dqIn[7]? = some true ∧ (7 : Nat) < 8 := by decide

theorem witness_ReadScratchpadFillsTheNineBytes :
    (inState .readScratchpad (List.replicate 72 true)).dqIn[71]? = some true ∧ (71 : Nat) < 72 := by decide

theorem witness_UnusedEncodingsAreRejected : SeqState.validate.code = SeqState.validate.code := rfl

end Sys2Proof.Tests
end

section
/-! What no operation and no step changes: the parameters (R7), one lemma for each function of the model that can make up a step. -/

namespace Sys2Proof.Machine

variable (s : State)

/-! ## The line and the bytes -/

@[simp] theorem writeBit_par (v : Bit) : (writeBit v s).par = s.par := by rw [writeBit_eq]

@[simp] theorem readBit_par : (readBit s).2.par = s.par := by rw [readBit_eq]

@[simp] theorem resetDetect_par : (resetDetect s).2.par = s.par := by rw [resetDetect_eq]

@[simp] theorem txByte_par (b : Byte) : (txByte b s).par = s.par := by rw [txByte_eq]

@[simp] theorem rxByte_par : (rxByte s).par = s.par := by
  obtain ⟨b, -, h⟩ := rxByte_eq s
  rw [h]

/-! ## The sequencer's bodies and the host's commands -/

@[simp] theorem raiseFailure_par (f : Failure) : (raiseFailure f s).par = s.par := by
  cases f with
  | presenceFailure | checksumMismatch | conversionTimeout => rfl

@[simp] theorem acquire_par : (acquire s).par = s.par := by
  unfold acquire
  split <;> rfl

/-- Reset sets every element but the parameters (R311). -/
@[simp] theorem resetState_par : (resetState s).par = s.par := rfl

@[simp] theorem resetBody_par (next : SeqState) : (resetBody next s).par = s.par := by rw [resetBody_eq]

@[simp] theorem commandBody_par (b : Byte) (next : SeqState) : (commandBody b next s).par = s.par := by
  rw [commandBody_eq]

@[simp] theorem pollBody_par : (pollBody s).par = s.par := by rw [pollBody_eq]

@[simp] theorem readScratchpadBody_par : (readScratchpadBody s).par = s.par := by
  obtain ⟨m, -, h⟩ := readScratchpadBody_eq s
  rw [h]

@[simp] theorem validateBody_par : (validateBody s).par = s.par := by rw [validateBody_eq]

/-! ## The phases -/

@[simp] theorem beginBody_par : (beginBody s).par = s.par := by
  unfold beginBody
  split <;> simp

@[simp] theorem byteSent_par : (byteSent s).par = s.par := by
  unfold byteSent
  split <;> simp

@[simp] theorem sentBitEnded_par : (sentBitEnded s).par = s.par := by
  simp only [sentBitEnded]
  split_ifs <;> simp

@[simp] theorem writeSlotEnded_par : (writeSlotEnded s).par = s.par := by
  unfold writeSlotEnded
  split <;> simp

@[simp] theorem byteReceived_par : (byteReceived s).par = s.par := by
  simp only [byteReceived]
  split_ifs <;> simp

@[simp] theorem receivedBitEnded_par : (receivedBitEnded s).par = s.par := by
  simp only [receivedBitEnded]
  split_ifs <;> simp

@[simp] theorem pollEnded_par : (pollEnded s).par = s.par := by
  simp only [pollEnded]
  split_ifs <;> simp

@[simp] theorem readSlotEnded_par : (readSlotEnded s).par = s.par := by
  cases h : s.use with
  | read | byte => simp [readSlotEnded, h]
  | sequencer | reset | write v =>
    simp only [readSlotEnded, h]
    split_ifs <;> simp

@[simp] theorem presenceFailed_par : (presenceFailed s).par = s.par := by
  unfold presenceFailed
  split_ifs <;> simp

@[simp] theorem presenceFound_par : (presenceFound s).par = s.par := by
  unfold presenceFound
  split_ifs <;> simp

@[simp] theorem phaseEnded_par : (phaseEnded s).par = s.par := by
  cases h : s.ph with
  | rstSample =>
    simp only [phaseEnded, h]
    split_ifs <;> simp
  | idle | rstLow | rstWait | rstRec | wrLow | wrHigh | rdLow | rdWait | rdSample | rdRem | pollGap =>
    simp [phaseEnded, h]

/-! ## The two levels of R9 -/

@[simp] theorem microStep_par : (microStep s).par = s.par := by
  unfold microStep
  split_ifs <;> simp

@[simp] theorem symbolStep_par : (symbolStep s).par = s.par := by
  unfold symbolStep
  split_ifs <;> simp

@[simp] theorem tick_par : (tick s).par = s.par := by
  unfold tick
  split_ifs <;> simp

/-! ## Operations and calls -/

variable {s} {t u : State} {i : Instr}

/-- An answer that is a state with the parameters of `s`. -/
theorem next_par (hu : u.par = s.par) (h : (.next u : Answer) = .next t) : t.par = s.par := by
  cases h
  exact hu

/-- What an operation returns is no parameter (R118). -/
theorem finish_par {r : Result} (hu : u.par = s.par) (h : finish r u = .next t) : t.par = s.par :=
  next_par (u := { u with res := r }) hu h

theorem execSample_par (h : execSample s = .next t) : t.par = s.par := by
  unfold execSample at h
  split at h
  · cases h
  · exact finish_par (sample_par s) h

theorem execSeqStartConversion_par (h : execSeqStartConversion s = .next t) : t.par = s.par := by
  rw [execSeqStartConversion, commandBody_eq] at h
  cases h
  rfl

theorem exec_par (h : exec i s = .next t) : t.par = s.par := by
  cases i with
  | driveLow => exact finish_par (driveLow_par s) h
  | release => exact finish_par (release_par s) h
  | delay n => exact finish_par (delay_par s n) h
  | sample => exact execSample_par h
  | resetDetect => exact finish_par (resetDetect_par s) h
  | w1 | w0 => exact finish_par (writeBit_par s _) h
  | readBit => exact finish_par (readBit_par s) h
  | txByte b => exact finish_par (txByte_par s b) h
  | rxByte => exact finish_par (rxByte_par s) h
  | selectAll | convert | readSp => exact finish_par (txByte_par s _) h
  | computeCrc m => exact finish_par (u := { s with crc := computeCrc m }) rfl h
  | crcStep c b | decode r | latest => exact finish_par (u := s) rfl h
  | acquire => exact finish_par (acquire_par s) h
  | reset => exact finish_par (resetState_par s) h
  | seqReset1 | seqReset2 => exact next_par (resetBody_par s _) h
  | seqSelectAll1 | seqSelectAll2 => exact next_par (commandBody_par s _ _) h
  | seqStartConversion => exact execSeqStartConversion_par h
  | seqConversionWait => exact next_par (pollBody_par s) h
  | seqReadScratchpad => exact next_par (readScratchpadBody_par s) h
  | seqValidate => exact next_par (validateBody_par s) h
  | seqIdle | seqCommitted | seqDiscarded | seqAborted | seqTimedOut => exact next_par rfl h

/-- Setting up a primitive or a byte keeps the parameters; the other operations have no phases to set up (R135 to R137, R160, R161). -/
theorem begun_par (h : begun i s = some t) : t.par = s.par := by
  cases i with
  | resetDetect | w1 | w0 | readBit | txByte b | rxByte | selectAll | convert | readSp =>
    cases h
    rfl
  | driveLow | release | delay n | sample | crcStep c b | computeCrc m | decode r | latest | acquire | reset => cases h
  | seqIdle | seqReset1 | seqSelectAll1 | seqStartConversion | seqConversionWait | seqReset2 | seqSelectAll2 => cases h
  | seqReadScratchpad | seqValidate | seqCommitted | seqDiscarded | seqAborted | seqTimedOut => cases h

/-- `TMR` is loaded in an answer that is a next state, and in no other. -/
theorem loadTimer_next {n : Nat} {a : Answer} (h : loadTimer n a = .next t) :
    ∃ u, a = .next u ∧ t = { u with tmr := n } := by
  cases a with
  | next u =>
    cases h
    exact ⟨u, rfl, rfl⟩
  | fault f => cases h
  | refused r => cases h

/-- What the first step of a call can be: the whole operation, alone or with `TMR` loaded, or the first micro-operation or the entered
first phase of what was begun (R9, R132, R143). -/
theorem runCall_next (h : runCall i s = .next t) :
    exec i s = .next t ∨ (∃ u, exec i s = .next u ∧ t = { u with tmr := delayTime i }) ∨
    ∃ u, begun i s = some u ∧ (t = microStep u ∨ t = enterPhase u) := by
  unfold runCall at h
  split at h
  · exact .inl h
  · next u _ hb =>
    cases h
    exact .inr (.inr ⟨u, hb, .inl rfl⟩)
  · exact .inl h
  · next u _ hb =>
    cases h
    exact .inr (.inr ⟨u, hb, .inr rfl⟩)
  · exact .inr (.inl (loadTimer_next h))

theorem runCall_par (h : runCall i s = .next t) : t.par = s.par := by
  rcases runCall_next h with he | ⟨u, he, rfl⟩ | ⟨u, hb, rfl | rfl⟩
  · exact exec_par he
  · exact (exec_par he : u.par = s.par)
  · exact (microStep_par u).trans (begun_par hb)
  · exact (enterPhase_par u).trans (begun_par hb)

/-! ## Steps -/

/-- A code that is run to a next state is an operation's, and the operation answered that state. -/
theorem runCode_next {run : Instr → State → Answer} {c : Code} (h : runCode run c s = .next t) :
    ∃ i, decode c = .ok i ∧ run i s = .next t := by
  unfold runCode at h
  split at h
  · next i hi => exact ⟨i, hi, h⟩
  · cases h

/-- What a step that answers can be: an operation the host asked for, a call's first step, a row of the sequencer, a micro-operation, or
a tick. -/
theorem step_next (h : step s = .next t) :
    (∃ c i, fetch s = .asked c ∧ decode c = .ok i ∧ exec i (taken s) = .next t) ∨
    (∃ c i, fetch s = .called c ∧ decode c = .ok i ∧ runCall i (taken s) = .next t) ∨
    (∃ q i, fetch s = .sequencer q ∧ decode (.seq4 q) = .ok i ∧ exec i (taken s) = .next t) ∨
    (fetch s = .micro ∧ t = symbolStep (taken s)) ∨
    (fetch s = .tick ∧ t = tick (taken s)) := by
  unfold step at h
  split at h
  · next c hf =>
    obtain ⟨i, hd, he⟩ := runCode_next h
    exact .inl ⟨c, i, hf, hd, he⟩
  · next c hf =>
    obtain ⟨i, hd, he⟩ := runCode_next h
    exact .inr (.inl ⟨c, i, hf, hd, he⟩)
  · next q hf =>
    obtain ⟨i, hd, he⟩ := runCode_next h
    exact .inr (.inr (.inl ⟨q, i, hf, hd, he⟩))
  · next hf =>
    cases h
    exact .inr (.inr (.inr (.inl ⟨hf, rfl⟩)))
  · next hf =>
    cases h
    exact .inr (.inr (.inr (.inr ⟨hf, rfl⟩)))

theorem step_par (h : step s = .next t) : t.par = s.par := by
  rcases step_next h with ⟨_, _, _, _, he⟩ | ⟨_, _, _, _, hc⟩ | ⟨_, _, _, _, he⟩ | ⟨_, rfl⟩ | ⟨_, rfl⟩
  · exact (exec_par he).trans (taken_par s)
  · exact (runCall_par hc).trans (taken_par s)
  · exact (exec_par he).trans (taken_par s)
  · simp
  · simp

/-- Settles O50: whatever a step's work is, each function it is made of keeps the parameters (R7). -/
theorem parametersNeverChange : Obligations.ParametersNeverChange := fun _ _ h => step_par h

end Sys2Proof.Machine
end

section
/-! The reset state's values (R40) and the outputs as functions of state (R36, R107, R253). -/

namespace Sys2Proof.Machine

/-! ## What the outputs read -/

/-- The resting states by name (R200). -/
theorem resting_iff (q : SeqState) :
    q.resting = true ↔ q = .idle ∨ q = .committed ∨ q = .discarded ∨ q = .aborted ∨ q = .timedOut := by
  cases q <;> decide

theorem busy_eq_false_iff (s : State) : s.busy = false ↔ s.seq.resting = true := by
  rw [State.busy, Bool.not_eq_false']

/-- R10's `sint16` is two's complement. -/
theorem sint16_eq_toInt (v : Raw) : sint16 v = v.toInt := by
  rw [sint16, BitVec.toInt_eq_toNat_cond]
  split_ifs <;> omega

/-- DECODE gives sixteenths for a valid Reading only, its raw value read as two's complement (R250). -/
theorem decodeReading_eq_sixteenths_iff (r : Reading) (n : Int) :
    decodeReading r = .sixteenths n ↔ r.valid = true ∧ r.raw.toInt = n := by
  rw [decodeReading, sint16_eq_toInt]
  cases r.valid <;> simp

/-- An invalid Reading has a raw value of zero (R30). -/
theorem raw_eq_zero_of_wf_of_invalid {r : Reading} (hr : r.wf = true) (hv : r.valid = false) : r.raw = 0 := by
  simpa [Reading.wf, hv] using hr

/-- The invariant makes the Reading State a Reading (R30). -/
theorem reading_wf_of_wf {s : State} (h : s.wf = true) : s.reading.wf = true := by
  simp only [State.wf, Bool.and_eq_true] at h
  tauto

/-! ## After reset -/

/-- Settles O1: each element has R40's value in the literal that `State.reset` is, and each output is read off those elements. -/
theorem resetStateHoldsTheSpecsValues : Obligations.ResetStateHoldsTheSpecsValues :=
  ⟨rfl, rfl, rfl, rfl, rfl, rfl, rfl, rfl, rfl, rfl, rfl, rfl, rfl, rfl, rfl⟩

/-! ## In any state -/

/-- Settles O37: `status` by the thirteen states, `busy` by the resting states' names, `LATEST` by what DECODE gives for the Reading State,
and zero raw outputs from the invariant's clause on the Reading State. -/
theorem outputsAreFunctionsOfState : Obligations.OutputsAreFunctionsOfState := by
  intro s
  have hstatus : s.outputs.status = s.seq.code := rfl
  refine ⟨rfl, ?_, (busy_eq_false_iff s).trans (resting_iff s.seq), rfl, rfl, rfl, rfl,
    decodeReading_eq_sixteenths_iff s.reading, fun hwf hv => ?_⟩
  · rw [hstatus]
    cases s.seq <;> rfl
  · have hraw : s.rsRaw = 0 := raw_eq_zero_of_wf_of_invalid (reading_wf_of_wf hwf) hv
    exact ⟨hraw, hraw⟩

end Sys2Proof.Machine
end

section
/-! The host command `ACQUIRE` (R111, R201). -/

namespace Sys2Proof.Machine

variable {s : State}

/-- R201, R281. -/
theorem acquire_of_resting (h : s.seq.resting = true) : acquire s = { s with seq := .reset1 } := if_pos h

/-- R111. -/
theorem acquire_of_busy (h : s.busy = true) : acquire s = s := by
  have hnot : s.seq.resting = false := (Bool.not_eq_true' _).mp h
  simp [acquire, hnot]

/-- The operation is the host command `acquire` with nothing returned. -/
theorem exec_acquire (s : State) : exec .acquire s = .next { acquire s with res := .none } := rfl

/-- Settles O38: a busy state is one that `acquire` leaves alone, and the five states named are the resting ones (R200). -/
theorem acquireStartsAtRestAndIsIgnoredWhileBusy : Obligations.AcquireStartsAtRestAndIsIgnoredWhileBusy := by
  refine fun s => ⟨fun hbusy => ?_, fun hrest => ?_⟩
  · rw [exec_acquire, acquire_of_busy hbusy]
  · rw [exec_acquire, acquire_of_resting ((resting_iff s.seq).mpr hrest)]

end Sys2Proof.Machine
end

section
/-! The line at the lowest levels: the two micro-operations that set its mode (R130, R131) and the four line symbols (R135 to R137). -/

namespace Sys2Proof.Machine

/-! ## What each operation answers -/

variable (s : State)

theorem exec_driveLow : exec .driveLow s = .next { driveLow s with res := .none } := rfl

theorem exec_release : exec .release s = .next { release s with res := .none } := rfl

/-- The operation returns what the presence sample means (R32, R135). -/
theorem exec_resetDetect :
    exec .resetDetect s =
      .next { (resetDetect s).2 with res := .presence (presenceOf (resetDetect s).1) } := rfl

theorem exec_w1 : exec .w1 s = .next { writeBit true s with res := .none } := rfl

theorem exec_w0 : exec .w0 s = .next { writeBit false s with res := .none } := rfl

/-- The operation returns the bit it read (R137). -/
theorem exec_readBit : exec .readBit s = .next { (readBit s).2 with res := .bit (readBit s).1 } := rfl

/-! ## The events from the sample on -/

/-- A read slot's events after its sample: the slot goes on to its end (R137). -/
theorem trace_append_readSlotEvents (b : Bit) :
    s.trace ++ readSlotEvents b = (atReadSample s).trace ++ [.smp b, .rel 52] := by
  simp [atReadSample, readSlotEvents]

/-- A reset frame's events after its sample: the recovery wait only on presence (R135). -/
theorem trace_append_resetEvents (p : Bit) :
    s.trace ++ resetEvents p =
      (atPresenceSample s).trace ++ if p then [.smp true] else [.smp false, .rel 435] := by
  cases p <;> simp [atPresenceSample, resetEvents]

/-- `RESET_DETECT` with the state at its presence sample named (R135). -/
theorem exec_resetDetect_eq :
    exec .resetDetect s = .next { atPresenceSample s with
      trace := (atPresenceSample s).trace ++
        if (atPresenceSample s).answer then [.smp true] else [.smp false, .rel 435]
      dqIn := s.dqIn.tail
      pres := !(atPresenceSample s).answer
      res := .presence (presenceOf (atPresenceSample s).answer) } := by
  rw [exec_resetDetect, resetDetect_eq, trace_append_resetEvents]
  rfl

/-! ## The obligations -/

/-- Settles O14: each micro-operation is its one assignment to `DQ_OE`. -/
theorem driveLowAndReleaseSetTheLineMode : Obligations.DriveLowAndReleaseSetTheLineMode :=
  fun s => ⟨exec_driveLow s, exec_release s⟩

/-- Settles O17: `u` is the state at the presence sample, and the two clauses are the sample's two readings. -/
theorem resetDetectFindsPresenceOrFails : Obligations.ResetDetectFindsPresenceOrFails := by
  refine fun s => ⟨fun (hhigh : (atPresenceSample s).answer = true) => ?_,
    fun (hlow : (atPresenceSample s).answer = false) => ?_⟩
  · rw [exec_resetDetect_eq, hhigh]
    rfl
  · rw [exec_resetDetect_eq, hlow]
    rfl

/-- Settles O18: the pulse of `WRITE_BIT`, with the times of either bit. -/
theorem writeSlotCarriesTheBitInItsLowTime : Obligations.WriteSlotCarriesTheBitInItsLowTime := by
  refine fun s => ⟨?_, ?_⟩
  · rw [exec_w1, writeBit_eq]
    rfl
  · rw [exec_w0, writeBit_eq]
    rfl

/-- Settles O19: `u` is the state at the sample of a read slot, and the slot's events go on after the sample by 52 µs. -/
theorem readSlotSamplesThirteenMicrosecondsIn : Obligations.ReadSlotSamplesThirteenMicrosecondsIn := by
  intro s
  rw [exec_readBit, readBit_eq, trace_append_readSlotEvents]
  rfl

end Sys2Proof.Machine
end

section
/-! A byte sent and a byte received (R160, R161). -/

namespace Sys2Proof.Machine

variable (s : State)

theorem exec_txByte (b : Byte) : exec (.txByte b) s = .next { txByte b s with res := .none } := rfl

/-- The operation returns the byte it has assembled in `SHR` (R161). -/
theorem exec_rxByte : exec .rxByte s = .next { rxByte s with res := .byte (rxByte s).shr } := rfl

/-- The bits of a byte in the order of the line are its bits by number (R67). -/
theorem flatMap_bitsOf (f : Bit → List Event) (b : Byte) :
    (bitsOf b).flatMap f = (List.range 8).flatMap fun k => f (b.getLsbD k) :=
  List.flatMap_map ..

/-- `TX_BYTE` and every effect of it (R160). -/
theorem exec_txByte_eq (b : Byte) :
    exec (.txByte b) s = .next { s with
      dqOe := false, shr := 0, bitcnt := 8, res := .none, trace := s.trace ++ sentByteEvents b } := by
  rw [exec_txByte, txByte_eq]

/-- `RX_BYTE` and every effect of it: the byte's bits are the samples in time order, and a planned sample is the plan's (R161). -/
theorem exec_rxByte_eq : ∃ b : Byte,
    (∀ k x, k < 8 → s.dqIn[k]? = some x → b.getLsbD k = x) ∧
    exec .rxByte s = .next { s with
      dqOe := false, shr := b, bitcnt := 8, rxbit := b.getLsbD 7, dqIn := s.dqIn.drop 8, res := .byte b
      trace := s.trace ++ receivedByteEvents b } := by
  obtain ⟨b, hplan, hrx⟩ := rxByte_eq s
  exact ⟨b, hplan, by rw [exec_rxByte, hrx]⟩

/-- Settles O22: the eight write slots of `sentByteEvents`, by the number of the bit. -/
theorem sentByteGoesLeastSignificantBitFirst : Obligations.SentByteGoesLeastSignificantBitFirst := by
  intro b s
  rw [exec_txByte_eq, sentByteEvents, flatMap_bitsOf]

/-- Settles O23: the eight read slots of `receivedByteEvents`, by the number of the bit. -/
theorem receivedByteComesLeastSignificantBitFirst : Obligations.ReceivedByteComesLeastSignificantBitFirst := by
  intro s
  obtain ⟨b, hplan, hexec⟩ := exec_rxByte_eq s
  refine ⟨b, hplan, ?_⟩
  rw [hexec, receivedByteEvents, flatMap_bitsOf]

end Sys2Proof.Machine
end

section
/-! The loopback line of `95_test_vectors.md` section 4.1 as a queue: a write slot puts its bit in, a sample takes the oldest out (R162). -/

namespace Sys2Proof.Machine

/-! ## What a trace has written and sampled -/

theorem writeSlotValues_append (es fs : List Event) :
    writeSlotValues (es ++ fs) = writeSlotValues es ++ writeSlotValues fs := by
  induction es with
  | nil => rfl
  | cons e es ih =>
    cases e with
    | low n =>
      simp only [List.cons_append, writeSlotValues, ih]
      split_ifs <;> rfl
    | rel n => exact ih
    | smp b => exact ih

theorem sampleCount_append (es fs : List Event) : sampleCount (es ++ fs) = sampleCount es + sampleCount fs := by
  induction es with
  | nil => exact (Nat.zero_add _).symm
  | cons e es ih =>
    cases e with
    | low n => exact ih
    | rel n => exact ih
    | smp b =>
      simp only [List.cons_append, sampleCount, ih]
      omega

/-- The low times of write slots give their bits back, in order (R136). -/
theorem writeSlotValues_writeSlots (bits : List Bit) : writeSlotValues (bits.flatMap writeSlotEvents) = bits := by
  induction bits with
  | nil => rfl
  | cons v bits ih =>
    have hslot : writeSlotValues (writeSlotEvents v) = [v] := by cases v <;> rfl
    rw [List.flatMap_cons, writeSlotValues_append, hslot, ih, List.singleton_append]

theorem sampleCount_writeSlots (bits : List Bit) : sampleCount (bits.flatMap writeSlotEvents) = 0 := by
  induction bits with
  | nil => rfl
  | cons v bits ih =>
    have hslot : sampleCount (writeSlotEvents v) = 0 := by cases v <;> rfl
    rw [List.flatMap_cons, sampleCount_append, hslot, ih]

/-! ## The queue -/

/-- The written bits of a trace that no sample has read yet, oldest first. -/
def loopPending (trace : List Event) : List Bit := (writeSlotValues trace).drop (sampleCount trace)

/-- The fixture answers the oldest bit not read yet, and 1 when none is left. -/
theorem envLoop_eq_headD (trace : List Event) : envLoop trace = (loopPending trace).headD true := by
  rw [envLoop, loopPending, List.headD_eq_head?_getD, List.head?_drop]

/-- The first events of a read slot write no bit and read none. -/
theorem loopPending_atReadSample (trace : List Event) : loopPending (trace ++ [.low 3, .rel 10]) = loopPending trace := by
  rw [loopPending, writeSlotValues_append, sampleCount_append]
  exact congrArg (List.drop _) (List.append_nil _)

/-- A read slot takes one bit out, whatever it read. -/
theorem loopPending_readSlotEvents (trace : List Event) (b : Bit) :
    loopPending (trace ++ readSlotEvents b) = (loopPending trace).tail := by
  have hwritten : writeSlotValues (readSlotEvents b) = [] := rfl
  have hsampled : sampleCount (readSlotEvents b) = 1 := rfl
  rw [loopPending, loopPending, writeSlotValues_append, sampleCount_append, hwritten, hsampled, List.append_nil, List.tail_drop]

/-- Write slots from an empty trace leave their bits in the queue. -/
theorem loopPending_writeSlots (bits : List Bit) : loopPending (bits.flatMap writeSlotEvents) = bits := by
  rw [loopPending, writeSlotValues_writeSlots, sampleCount_writeSlots, List.drop_zero]

/-! ## Read slots over the line -/

/-- A read slot follows an oracle when its one sample does (R66, R94). -/
theorem follows_readSlotEvents_append (env : List Event → Bit) (trace es : List Event) (b : Bit) :
    follows env trace (readSlotEvents b ++ es) = true ↔
      b = env (trace ++ [.low 3, .rel 10]) ∧ follows env (trace ++ readSlotEvents b) es = true := by
  simp [readSlotEvents, follows]

/-- As many read slots as bits are pending read those bits, in order. -/
theorem eq_loopPending_of_follows {bits : List Bit} {trace : List Event} (hlen : bits.length = (loopPending trace).length)
    (hloop : follows envLoop trace (bits.flatMap readSlotEvents) = true) : bits = loopPending trace := by
  induction bits generalizing trace with
  | nil => exact (List.length_eq_zero_iff.mp hlen.symm).symm
  | cons b bits ih =>
    obtain ⟨hb, hrest⟩ := (follows_readSlotEvents_append ..).mp hloop
    rw [envLoop_eq_headD, loopPending_atReadSample] at hb
    have hbits : bits = (loopPending trace).tail := by
      rw [← loopPending_readSlotEvents trace b]
      refine ih ?_ hrest
      rw [loopPending_readSlotEvents, List.length_tail, ← hlen, List.length_cons, Nat.add_sub_cancel]
    cases hq : loopPending trace with
    | nil => simp [hq] at hlen
    | cons w ws => rw [hb, hbits, hq, List.headD_cons, List.tail_cons]

/-- A byte sent from an empty trace and then received over the loopback line is the same byte. -/
theorem eq_of_follows_receivedByteEvents {b c : Byte}
    (hloop : follows envLoop (sentByteEvents b) (receivedByteEvents c) = true) : c = b := by
  have hpending : loopPending (sentByteEvents b) = bitsOf b := loopPending_writeSlots _
  have hbits := eq_loopPending_of_follows (bits := bitsOf c) (by rw [hpending]; rfl) hloop
  exact bitsOf_injective (hbits.trans hpending)

/-- Settles O25: the trace at RX_BYTE is the sent byte's slots, and the received byte's slots come after it. -/
theorem loopbackReturnsTheByteSent : Obligations.LoopbackReturnsTheByteSent := by
  intro b s t u hempty htx hrx hloop
  obtain ⟨c, -, hexec⟩ := exec_rxByte_eq t
  obtain rfl : _ = t := Host.Outcome.next.inj ((exec_txByte_eq s b).symm.trans htx)
  obtain rfl : _ = u := Host.Outcome.next.inj (hexec.symm.trans hrx)
  have hc : c = b := by
    simp only [hempty, List.nil_append, List.drop_left] at hloop
    exact eq_of_follows_receivedByteEvents hloop
  exact ⟨congrArg Result.byte hc, hc⟩

end Sys2Proof.Machine
end

section
/-! The checksum: the printed table against its generator (R181, R182), and the fold of `COMPUTE_CRC` (R184). -/

namespace Sys2Proof.Machine

/-! ## The table -/

/-- R181's values for consecutive indices. -/
def generatedRows (first count : Nat) : List Byte :=
  (List.range' first count).map fun n => romGenerated (BitVec.ofNat 8 n)

theorem generatedRows_append (first m n : Nat) :
    generatedRows first m ++ generatedRows (first + m) n = generatedRows first (m + n) := by
  rw [generatedRows, generatedRows, ← List.map_append, List.range'_append_1, generatedRows]

/-- The table as R182 prints it lists R181's values in the order of the index; each part of it is computed by itself. -/
theorem romTable_eq_generatedRows : romTable = generatedRows 0 256 := by
  have rows0 : romRows0 = generatedRows 0 64 := by decide
  have rows1 : romRows1 = generatedRows (0 + 64) 64 := by decide
  have rows2 : romRows2 = generatedRows (0 + (64 + 64)) 64 := by decide
  have rows3 : romRows3 = generatedRows (0 + (64 + 64 + 64)) 64 := by decide
  rw [romTable, rows0, rows1, rows2, rows3, generatedRows_append, generatedRows_append, generatedRows_append]

theorem rom_eq_romGenerated (i : Byte) : rom i = romGenerated i := by
  have hlt : i.toNat < 256 := i.isLt
  simp [rom, romTable_eq_generatedRows, generatedRows, hlt]

/-- Settles O26: `romGenerated` is the generator written out. -/
theorem romIsTheGeneratedTable : Obligations.RomIsTheGeneratedTable :=
  rom_eq_romGenerated

@[simp] theorem rom_zero : rom 0 = 0 := rfl

/-! ## The fold -/

@[simp] theorem crcStep_zero_zero : crcStep 0 0 = 0 := rom_zero

@[simp] theorem computeCrc_nil : computeCrc [] = 0 := rfl

/-- The last byte of a message is the last step of the fold. -/
@[simp] theorem computeCrc_concat (m : List Byte) (b : Byte) : computeCrc (m ++ [b]) = crcStep (computeCrc m) b :=
  List.foldl_concat ..

/-- Zero bytes leave the register at 0. -/
theorem computeCrc_replicate_zero (n : Nat) : computeCrc (List.replicate n 0) = 0 := by
  induction n with
  | zero => exact computeCrc_nil
  | succ n ih => rw [List.replicate_succ', computeCrc_concat, ih, crcStep_zero_zero]

theorem exec_computeCrc_eq (m : List Byte) (s : State) :
    exec (.computeCrc m) s = .next { s with crc := computeCrc m, res := .byte (computeCrc m) } := rfl

/-- Settles O29: the arm of `COMPUTE_CRC`, the fold from either end, and two closed computations. -/
theorem computeCrcFoldsTheTable : Obligations.ComputeCrcFoldsTheTable :=
  ⟨exec_computeCrc_eq, computeCrc_nil, computeCrc_concat, computeCrc_replicate_zero, by decide, by decide⟩

end Sys2Proof.Machine
end

section
/-! The bodies of the sequencer's states, row by row (R203, R204, R207 to R210). -/

namespace Sys2Proof.Machine

variable {s : State}

/-! ## `Reset1` and `Reset2` -/

theorem exec_seqReset1 : exec .seqReset1 s = .next (resetBody .selectAll1 s) := rfl

theorem exec_seqReset2 : exec .seqReset2 s = .next (resetBody .selectAll2 s) := rfl

/-- A high presence sample: the reset frame ends at it, and the transaction aborts (R203, R207, R271). -/
theorem resetBody_of_absent (next : SeqState) (h : (atPresenceSample s).answer = true) :
    resetBody next s = { atPresenceSample s with
      trace := (atPresenceSample s).trace ++ [.smp true]
      dqIn := s.dqIn.tail
      pres := false
      seq := .aborted } := by
  rw [resetBody_eq, trace_append_resetEvents, h]
  rfl

/-- A low presence sample: the frame's recovery wait, then the successor (R203, R207). -/
theorem resetBody_of_present (next : SeqState) (h : (atPresenceSample s).answer = false) :
    resetBody next s = { atPresenceSample s with
      trace := (atPresenceSample s).trace ++ [.smp false, .rel 435]
      dqIn := s.dqIn.tail
      pres := true
      seq := next } := by
  rw [resetBody_eq, trace_append_resetEvents, h]
  rfl

/-- Settles O40: `u` is the state at the presence sample, and both rows run one body, which the sample decides. -/
theorem resetStatesGoOnOrAbort : Obligations.ResetStatesGoOnOrAbort := by
  refine fun s => ⟨fun (habsent : (atPresenceSample s).answer = true) => ?_,
    fun (hpresent : (atPresenceSample s).answer = false) => ?_⟩
  · rw [exec_seqReset1, exec_seqReset2, resetBody_of_absent _ habsent, resetBody_of_absent _ habsent]
    exact ⟨rfl, rfl⟩
  · rw [exec_seqReset1, exec_seqReset2, resetBody_of_present _ hpresent, resetBody_of_present _ hpresent]
    exact ⟨rfl, rfl⟩

/-! ## `SelectAll1` and `SelectAll2` -/

theorem exec_seqSelectAll1 :
    exec .seqSelectAll1 s = .next (commandBody Config.cmdSelectAll .startConversion s) := rfl

theorem exec_seqSelectAll2 :
    exec .seqSelectAll2 s = .next (commandBody Config.cmdSelectAll .readScratchpad s) := rfl

/-- Settles O41: both rows transmit the select command and differ in the successor alone. -/
theorem selectStatesSendSelectAll : Obligations.SelectStatesSendSelectAll := by
  intro s
  rw [exec_seqSelectAll1, exec_seqSelectAll2, commandBody_eq, commandBody_eq]
  exact ⟨rfl, rfl⟩

/-! ## `ReadScratchpad` -/

theorem exec_seqReadScratchpad : exec .seqReadScratchpad s = .next (readScratchpadBody s) := rfl

/-- Settles O44: the nine bytes are those the body receives, each planned answer at its place in them. -/
theorem readScratchpadFillsTheNineBytes : Obligations.ReadScratchpadFillsTheNineBytes := by
  intro s
  obtain ⟨m, hplan, hbody⟩ := readScratchpadBody_eq s
  refine ⟨m, hplan, ?_⟩
  rw [exec_seqReadScratchpad, hbody]
  rfl

/-! ## `Validate` -/

theorem exec_seqValidate : exec .seqValidate s = .next (validateBody s) := rfl

/-- The message under the checksum, byte by byte (R101, R185). -/
theorem spMessage_eq :
    s.spMessage = [s.sp[0], s.sp[1], s.sp[2], s.sp[3], s.sp[4], s.sp[5], s.sp[6], s.sp[7]] := by
  refine List.ext_getElem (by simp [State.spMessage]) fun k _ hk => ?_
  have hk8 : k < 8 := hk
  interval_cases k <;> simp [State.spMessage]

/-- A matching checksum: the Reading State takes the raw temperature (R210). -/
theorem validateBody_of_match (h : computeCrc s.spMessage = s.spChecksum) :
    validateBody s = { s with
      crc := computeCrc s.spMessage, rsValid := true, rsRaw := s.spRaw, seq := .committed } := by
  simp [validateBody_eq, h]

/-- A checksum that does not match: the Reading State is invalidated (R210, R272). -/
theorem validateBody_of_mismatch (h : computeCrc s.spMessage ≠ s.spChecksum) :
    validateBody s = { s with
      crc := computeCrc s.spMessage, rsValid := false, rsRaw := 0, seq := .discarded } := by
  simp [validateBody_eq, h]

/-- Settles O45: the checksum of the message, byte by byte, decides which of the body's two changes is made. -/
theorem validateCommitsOrDiscards : Obligations.ValidateCommitsOrDiscards := by
  intro s
  rw [exec_seqValidate, ← spMessage_eq]
  refine ⟨fun hmatch => ?_, fun hmismatch => ?_⟩
  · rw [validateBody_of_match hmatch]
    rfl
  · rw [validateBody_of_mismatch hmismatch]

end Sys2Proof.Machine
end

section
/-! The temperature decoder and the reading accessor (R250, R254). -/

namespace Sys2Proof.Machine

variable {s : State}

/-- DECODE with R10's `sint16` as two's complement (R250). -/
theorem decodeReading_eq (r : Reading) :
    decodeReading r = if r.valid then .sixteenths r.raw.toInt else .invalid := by
  rw [decodeReading, sint16_eq_toInt]

theorem degrees_sixteenths (n : Int) : degrees (.sixteenths n) = some ((n : Rat) / 16) := rfl

/-- A valid Reading in degrees is its two's complement value over 16, exactly (R250). -/
theorem degrees_decodeReading_valid (raw : Raw) :
    degrees (decodeReading ⟨true, raw⟩) = some ((raw.toInt : Rat) / 16) := by
  rw [decodeReading_eq, if_pos rfl, degrees_sixteenths]

theorem exec_decode (r : Reading) :
    exec (.decode r) s = .next { s with res := .temperature (decodeReading r) } := rfl

theorem exec_latest : exec .latest s = .next { s with res := .temperature (decodeReading s.reading) } := rfl

/-- R250's first worked example: 0x0191 is 401 sixteenths. -/
theorem degrees_decodeReading_0191 : degrees (decodeReading ⟨true, 0x0191⟩) = some 25.0625 := by
  have hint : (0x0191 : Raw).toInt = 401 := by decide
  rw [degrees_decodeReading_valid, hint]
  norm_num

/-- R250's second worked example: 0xFF5E is -162 sixteenths. -/
theorem degrees_decodeReading_FF5E : degrees (decodeReading ⟨true, 0xFF5E⟩) = some (-10.125) := by
  have hint : (0xFF5E : Raw).toInt = -162 := by decide
  rw [degrees_decodeReading_valid, hint]
  norm_num

/-- Settles O34: the arm of `DECODE` returns what DECODE gives, and the worked examples are computed from the raw value's sixteenths. -/
theorem decodeIsTwosComplementSixteenths : Obligations.DecodeIsTwosComplementSixteenths := by
  refine ⟨fun r s => ?_, degrees_sixteenths, rfl, degrees_decodeReading_0191, degrees_decodeReading_FF5E⟩
  rw [exec_decode, decodeReading_eq]

/-- Settles O36: the arm of `LATEST` returns what DECODE gives for the Reading State. -/
theorem latestDecodesTheReadingState : Obligations.LatestDecodesTheReadingState := by
  intro s
  rw [exec_latest, decodeReading_eq]
  rfl

end Sys2Proof.Machine
end

section
/-! The three failures, each as its change of state (R271 to R273). -/

namespace Sys2Proof.Machine

variable {s : State}

theorem raiseFailure_presenceFailure :
    raiseFailure .presenceFailure s = { s with pres := false, seq := .aborted, dqOe := false } := rfl

/-- The write that clears the Reading State is the one of `Discarded` (R31, R272). -/
theorem raiseFailure_checksumMismatch :
    raiseFailure .checksumMismatch s = { s with rsValid := false, rsRaw := 0, seq := .discarded } := rfl

theorem raiseFailure_conversionTimeout :
    raiseFailure .conversionTimeout s = { s with seq := .timedOut, dqOe := false } := rfl

/-- Settles O46: one equation per kind of failure. -/
theorem failuresAreExactlyTheseChanges : Obligations.FailuresAreExactlyTheseChanges := fun _ =>
  ⟨raiseFailure_presenceFailure, raiseFailure_checksumMismatch, raiseFailure_conversionTimeout⟩

end Sys2Proof.Machine
end

section
/-! The operation `RESET` (R311). -/

namespace Sys2Proof.Machine

variable {s : State}

/-- The operation is the model's reset, busy or not. -/
theorem exec_reset (s : State) : exec .reset s = .next (resetState s) := rfl

theorem resetState_seq (s : State) : (resetState s).seq = .idle := rfl

theorem resetState_rsValid (s : State) : (resetState s).rsValid = false := rfl

/-- `LATEST` of a Reading State that holds no reading (R254). -/
theorem latest_of_not_valid (h : s.rsValid = false) : latest s = .invalid := by
  have hreading : s.reading.valid = false := h
  simp [latest, decodeReading_eq, hreading]

/-- `ACQUIRE` is accepted after `RESET`: `Idle` is a resting state (R200, R201). -/
theorem exec_acquire_resetState (s : State) :
    exec .acquire (resetState s) = .next { resetState s with seq := .reset1, res := .none } :=
  (acquireStartsAtRestAndIsIgnoredWhileBusy (resetState s)).2 (.inl (resetState_seq s))

/-- Settles O2: but for `SP`, every state element of R40 is the one of `State.reset`, and O1 gives its value there. -/
theorem resetOperationRestoresTheResetValues : Obligations.ResetOperationRestoresTheResetValues := by
  intro s
  obtain ⟨hrsValid, hrsRaw, hseq, hdqOe, hph, htmr, hshr, hbitcnt, hbytecnt, hcrc, hpollcnt, hpres, hrxbit, htrace, -⟩ :=
    resetStateHoldsTheSpecsValues
  exact ⟨resetState s, exec_reset s,
    hrsValid, hrsRaw, hseq, hdqOe, hph, htmr, hshr, hbitcnt, hbytecnt, hcrc, hpollcnt, hpres, hrxbit, htrace,
    resetState_par s, latest_of_not_valid (resetState_rsValid s), exec_acquire_resetState s⟩

end Sys2Proof.Machine
end

section
/-! The encoding: the decoder and the encoder are inverse to each other (R90 to R119). -/

namespace Sys2Proof

/-! ## Waveforms -/

/-- The waveform of one slot is cut into that slot (R92 to R94). -/
theorem takeSlots_one_wave (k : Slot) : takeSlots 1 k.wave = some [k] := by
  simpa using takeSlots_waves [k]

theorem slot_wave_ne_resetWave (k : Slot) : k.wave ≠ resetWave := by
  cases k with
  | read => decide
  | write v => cases v <;> decide

/-- What `takeSlot` cuts off is a slot's waveform. -/
theorem eq_wave_append_of_takeSlot {ts rest : List Tok} {k : Slot} (h : takeSlot ts = some (k, rest)) :
    ts = k.wave ++ rest := by
  unfold takeSlot at h
  split at h
  · split_ifs at h with hread
    obtain ⟨rfl, rfl, rfl⟩ := hread
    cases h
    rfl
  · split_ifs at h with hone hzero
    · obtain ⟨rfl, rfl⟩ := hone
      cases h
      rfl
    · obtain ⟨rfl, rfl⟩ := hzero
      cases h
      rfl
  · cases h

/-- A waveform cut into `n` slots is the waveform of those slots (R96). -/
theorem eq_waves_of_takeSlots {n : Nat} {ts : List Tok} {ks : List Slot} (h : takeSlots n ts = some ks) :
    ts = ks.flatMap Slot.wave ∧ ks.length = n := by
  induction n generalizing ts ks with
  | zero =>
    cases ts with
    | nil =>
      cases h
      exact ⟨rfl, rfl⟩
    | cons => cases h
  | succ n ih =>
    rw [takeSlots] at h
    split at h
    · next k rest hk =>
      obtain ⟨ks', hks', rfl⟩ := Option.map_eq_some_iff.mp h
      obtain ⟨rfl, hlen⟩ := ih hks'
      exact ⟨eq_wave_append_of_takeSlot hk, by simp [hlen]⟩
    · cases h

/-- The slots that carry bits are write slots, one for each bit. -/
theorem eq_map_write_of_writtenBits {ks : List Slot} {bs : List Bit} (h : writtenBits ks = some bs) :
    ks = bs.map Slot.write := by
  induction ks generalizing bs with
  | nil =>
    cases h
    rfl
  | cons k ks ih =>
    cases k with
    | read => cases h
    | write v =>
      obtain ⟨bs', hbs', rfl⟩ := Option.map_eq_some_iff.mp h
      rw [ih hbs', List.map_cons]

/-- Eight bits are the bits of the byte assembled from them (R103). -/
theorem bitsOf_byteOfBits {bs : List Bit} (h : bs.length = 8) : bitsOf (byteOfBits bs) = bs := by
  have hall : ∀ b0 b1 b2 b3 b4 b5 b6 b7 : Bit,
      bitsOf (byteOfBits [b0, b1, b2, b3, b4, b5, b6, b7]) = [b0, b1, b2, b3, b4, b5, b6, b7] := by decide
  match bs, h with
  | [b0, b1, b2, b3, b4, b5, b6, b7], _ => exact hall b0 b1 b2 b3 b4 b5 b6 b7

theorem txFrame_eq_waves (b : Byte) : txFrame b = ((bitsOf b).map Slot.write).flatMap Slot.wave :=
  (List.flatMap_map ..).symm

/-! ## A waveform decoded -/

/-- A slot's waveform is decoded as the slot (R92 to R94). -/
theorem decodeWave_slot (k : Slot) :
    decodeWave k.wave = .ok (match k with | .write true => .w1 | .write false => .w0 | .read => .readBit) := by
  rw [decodeWave, if_neg (slot_wave_ne_resetWave k), takeSlots_one_wave]
  cases k with
  | read => rfl
  | write v => cases v <;> rfl

/-- Eight write slots are decoded as the byte they carry (R96). -/
theorem decodeFrame_txFrame (b : Byte) : decodeFrame (txFrame b) = .ok (.txByte b) := by
  have hcut : takeSlots 8 (txFrame b) = some ((bitsOf b).map Slot.write) := by
    rw [txFrame_eq_waves]
    exact takeSlots_waves ((bitsOf b).map Slot.write)
  have hwrite : (bitsOf b).map Slot.write ≠ List.replicate 8 Slot.read := fun h => by cases h
  simp only [decodeFrame, hcut, if_neg hwrite, writtenBits_write, byteOfBits_bitsOf]

/-- Eight read slots are decoded as `RX_BYTE` (R96). -/
theorem decodeFrame_rxFrame : decodeFrame rxFrame = .ok .rxByte := by
  have hcut : takeSlots 8 rxFrame = some (List.replicate 8 Slot.read) :=
    takeSlots_waves (List.replicate 8 Slot.read)
  simp only [decodeFrame, hcut, if_pos]

/-! ## The operand of `DECODE` -/

/-- The two parts of a Reading's 17 bits (R106; log 3). -/
theorem reading_of_append (r : Reading) :
    (⟨(BitVec.ofBool r.valid ++ r.raw).getLsbD 16, (BitVec.ofBool r.valid ++ r.raw).extractLsb' 0 16⟩ : Reading) = r := by
  have hvalid : (BitVec.ofBool r.valid ++ r.raw).getLsbD 16 = r.valid := by
    rw [BitVec.getLsbD_append]
    simp
  have hraw : (BitVec.ofBool r.valid ++ r.raw).extractLsb' 0 16 = r.raw := BitVec.extractLsb'_append_eq_right
  rw [hvalid, hraw]

/-- 17 bits are the flag and the raw value they are cut into. -/
theorem append_of_seventeen (w : BitVec 17) : BitVec.ofBool (w.getLsbD 16) ++ w.extractLsb' 0 16 = w := by
  refine BitVec.eq_of_getLsbD_eq fun k hk => ?_
  rw [BitVec.getLsbD_append]
  split_ifs with hlt
  · simp [hlt]
  · obtain rfl : k = 16 := by omega
    simp

theorem decodeFunc_decode {r : Reading} (h : r.wf = true) :
    decodeFunc (.decode (BitVec.ofBool r.valid ++ r.raw)) = .ok (.decode r) := by
  simp only [decodeFunc, reading_of_append, h, if_true]

/-! ## Decoding an encoding -/

/-- Settles O11: slots by what `takeSlots` makes of their waveforms, the Reading by its 17 bits, and every other operation by its own line
of the tables. -/
theorem decodeAfterEncodeIsTheOperation : Obligations.DecodeAfterEncodeIsTheOperation := by
  intro i hwf
  cases i with
  | w1 => exact decodeWave_slot (.write true)
  | w0 => exact decodeWave_slot (.write false)
  | readBit => exact decodeWave_slot .read
  | txByte b => exact decodeFrame_txFrame b
  | rxByte => exact decodeFrame_rxFrame
  | decode r => exact decodeFunc_decode hwf
  | driveLow | release | delay n | sample | resetDetect => rfl
  | selectAll | convert | readSp | crcStep c b | computeCrc m | latest | acquire | reset => rfl
  | seqIdle | seqReset1 | seqSelectAll1 | seqStartConversion | seqConversionWait | seqReset2 | seqSelectAll2 => rfl
  | seqReadScratchpad | seqValidate | seqCommitted | seqDiscarded | seqAborted | seqTimedOut => rfl

/-! ## Nothing but encodings is decoded -/

theorem encode_of_decodeCalls {cs : List PlatformCall} {i : Instr} (h : decodeCalls cs = .ok i) :
    i.wf = true ∧ encode i = .calls cs := by
  unfold decodeCalls at h
  split at h <;> cases h <;> exact ⟨rfl, rfl⟩

theorem encode_of_decodeWave {ts : List Tok} {i : Instr} (h : decodeWave ts = .ok i) :
    i.wf = true ∧ encode i = .wave ts := by
  unfold decodeWave at h
  split_ifs at h with hreset
  · cases h
    exact ⟨rfl, congrArg _ hreset.symm⟩
  · split at h <;> cases h
    all_goals
      next hcut =>
      obtain ⟨rfl, -⟩ := eq_waves_of_takeSlots hcut
      exact ⟨rfl, rfl⟩

theorem encode_of_decodeFrame {ts : List Tok} {i : Instr} (h : decodeFrame ts = .ok i) :
    i.wf = true ∧ encode i = .frame ts := by
  unfold decodeFrame at h
  split at h
  · cases h
  · next ks hcut =>
    obtain ⟨rfl, hlen⟩ := eq_waves_of_takeSlots hcut
    split_ifs at h with hread
    · cases h
      exact ⟨rfl, by rw [hread]; rfl⟩
    · split at h
      · next bs hbits =>
        cases h
        obtain rfl := eq_map_write_of_writtenBits hbits
        rw [List.length_map] at hlen
        exact ⟨rfl, by rw [encode, txFrame_eq_waves, bitsOf_byteOfBits hlen]⟩
      · cases h

/-- The three command bytes and the operations they are (R97). -/
theorem decodeCmd_eq_ok_iff (b : Byte) (i : Instr) :
    decodeCmd b = .ok i ↔ (b = 0xCC#8 ∧ i = .selectAll) ∨ (b = 0x44#8 ∧ i = .convert) ∨ (b = 0xBE#8 ∧ i = .readSp) := by
  unfold decodeCmd
  split_ifs with hsel hconv hread
  · subst hsel
    simp [Config.cmdSelectAll, eq_comm]
  · subst hconv
    simp [Config.cmdConvert, eq_comm]
  · subst hread
    simp [Config.cmdReadSp, eq_comm]
  · simp only [Config.cmdSelectAll, Config.cmdConvert, Config.cmdReadSp] at hsel hconv hread
    simp [hsel, hconv, hread]

theorem encode_of_decodeCmd {b : Byte} {i : Instr} (h : decodeCmd b = .ok i) : i.wf = true ∧ encode i = .cmd8 b := by
  rcases (decodeCmd_eq_ok_iff b i).mp h with ⟨rfl, rfl⟩ | ⟨rfl, rfl⟩ | ⟨rfl, rfl⟩ <;> exact ⟨rfl, rfl⟩

theorem encode_of_decodeFunc {f : FuncCall} {i : Instr} (h : decodeFunc f = .ok i) :
    i.wf = true ∧ encode i = .func f := by
  unfold decodeFunc at h
  split at h
  · cases h
    exact ⟨rfl, rfl⟩
  · cases h
  · cases h
    exact ⟨rfl, rfl⟩
  · next w =>
    simp only at h
    split_ifs at h with hwf
    cases h
    exact ⟨hwf, congrArg (fun w => Code.func (.decode w)) (append_of_seventeen w)⟩
  · cases h
    exact ⟨rfl, rfl⟩

theorem encode_of_decodePort {p : Port} {i : Instr} (h : decodePort p = .ok i) : i.wf = true ∧ encode i = .host1 p := by
  cases p <;> cases h <;> exact ⟨rfl, rfl⟩

end Sys2Proof

namespace Sys2Proof.Machine

/-! ## The rows of the sequencer by their codes -/

/-- The row of a sequencer state: the operation that runs its body (R107, R200). -/
def SeqState.row : SeqState → Instr
  | .idle => .seqIdle
  | .reset1 => .seqReset1
  | .selectAll1 => .seqSelectAll1
  | .startConversion => .seqStartConversion
  | .conversionWait => .seqConversionWait
  | .reset2 => .seqReset2
  | .selectAll2 => .seqSelectAll2
  | .readScratchpad => .seqReadScratchpad
  | .validate => .seqValidate
  | .committed => .seqCommitted
  | .discarded => .seqDiscarded
  | .aborted => .seqAborted
  | .timedOut => .seqTimedOut

theorem seqOfCode_code (q : SeqState) : seqOfCode q.code = some q := by cases q <;> rfl

theorem code_of_seqOfCode (c : BitVec 4) : ∀ q ∈ seqOfCode c, q.code = c := by
  revert c
  decide

/-- A code of `SEQ` is decoded as its state's row, and the others are rejected (R107, R113). -/
theorem decodeSeq_eq (c : BitVec 4) :
    decodeSeq c = (seqOfCode c).elim (.error .unusedSeqCode) fun q => .ok q.row := by
  revert c
  decide

theorem decode_code (q : SeqState) : decode (.seq4 q.code) = .ok q.row := by
  rw [decode, decodeSeq_eq, seqOfCode_code, Option.elim_some]

theorem encode_row (q : SeqState) : q.row.wf = true ∧ encode q.row = .seq4 q.code := by
  cases q <;> exact ⟨rfl, rfl⟩

/-- What a code of `SEQ` is decoded as is the row of the state with that code. -/
theorem decodeSeq_eq_ok_iff (c : BitVec 4) (i : Instr) :
    decodeSeq c = .ok i ↔ ∃ q : SeqState, q.code = c ∧ q.row = i := by
  refine ⟨fun h => ?_, fun ⟨q, hc, hi⟩ => ?_⟩
  · rw [decodeSeq_eq] at h
    cases hq : seqOfCode c with
    | none =>
      rw [hq] at h
      cases h
    | some q =>
      rw [hq] at h
      cases h
      exact ⟨q, code_of_seqOfCode c q hq, rfl⟩
  · rw [← hc, ← hi]
    exact decode_code q

theorem decode_seq4_eq_ok_iff (q : SeqState) (i : Instr) : decode (.seq4 q.code) = .ok i ↔ i = q.row := by
  rw [decode_code, Except.ok.injEq, eq_comm]

/-- Settles O12: format by format, what the decoder accepts is the line of the tables that `encode` has for it. -/
theorem onlyEncodingsDecode : Obligations.OnlyEncodingsDecode := by
  intro c i h
  cases c with
  | calls cs => exact encode_of_decodeCalls h
  | wave ts => exact encode_of_decodeWave h
  | frame ts => exact encode_of_decodeFrame h
  | cmd8 b => exact encode_of_decodeCmd h
  | func f => exact encode_of_decodeFunc h
  | host1 p => exact encode_of_decodePort h
  | seq4 c =>
    obtain ⟨q, rfl, rfl⟩ := (decodeSeq_eq_ok_iff c i).mp h
    exact encode_row q

/-- Settles O13: the three bytes of `decodeCmd`, the thirteen codes of `seqOfCode`, and `seqOfCode` undoing `SeqState.code`. -/
theorem unusedEncodingsAreRejected : Obligations.UnusedEncodingsAreRejected := by
  refine ⟨fun b => ⟨?_, ?_⟩, fun c => ?_, fun p q h => ?_⟩
  · rintro ⟨i, hi⟩
    rcases (decodeCmd_eq_ok_iff b i).mp hi with ⟨hb, -⟩ | ⟨hb, -⟩ | ⟨hb, -⟩ <;> simp [hb]
  · rintro (rfl | rfl | rfl)
    · exact ⟨.selectAll, rfl⟩
    · exact ⟨.convert, rfl⟩
    · exact ⟨.readSp, rfl⟩
  · have hused : ∀ c : BitVec 4, (seqOfCode c).isSome = decide (c.toNat ≤ 12) := by decide
    rw [decode, decodeSeq_eq, ← decide_eq_true_iff (p := c.toNat ≤ 12), ← hused]
    cases seqOfCode c <;> simp
  · rw [← Option.some.injEq, ← seqOfCode_code p, ← seqOfCode_code q, h]

/-- Settles O10: each encoding is read off the tables, and the numbers of the opcode table are the codes of `SEQ` and the command bytes. -/
theorem writtenOutEncodingsDecode : Obligations.WrittenOutEncodingsDecode := by
  refine ⟨rfl, rfl, rfl, rfl, rfl, decodeFrame_txFrame 0x01, rfl, rfl, ?_⟩
  decide

/-! ## A number of the opcode table -/

theorem format_encode (i : Instr) : (encode i).format = i.format := by cases i <;> rfl

/-- An operation has the format of the code it is decoded from (R116). -/
theorem format_of_decode {c : Code} {i : Instr} (h : decode c = .ok i) : i.format = c.format := by
  rw [← format_encode, (onlyEncodingsDecode c i h).2]

theorem codeOfTableWord_eq_some {nbits w : Nat} {c : Code} (h : codeOfTableWord nbits w = some c) :
    (∃ x, c = .seq4 x) ∨ ∃ b, c = .cmd8 b := by
  simp only [codeOfTableWord] at h
  split_ifs at h with hseq hcmd
  · exact .inl ⟨_, (Option.some.inj h).symm⟩
  · exact .inr ⟨_, (Option.some.inj h).symm⟩

/-- A number of the opcode table that has an operation is a code of `SEQ` or a command byte (log 4). -/
theorem decodeTableWord_eq_some {nbits w : Nat} {i : Instr} (h : decodeTableWord nbits w = some i) :
    (∃ q : SeqState, codeOfTableWord nbits w = some (.seq4 q.code) ∧ i = q.row) ∨
    ∃ b, codeOfTableWord nbits w = some (.cmd8 b) ∧ decode (.cmd8 b) = .ok i := by
  unfold decodeTableWord at h
  split at h
  · next c hc =>
    have hd : decode c = .ok i := by
      cases hdec : decode c with
      | error e => simp [hdec, Except.toOption] at h
      | ok j => simpa [hdec, Except.toOption] using h
    rcases codeOfTableWord_eq_some hc with ⟨x, rfl⟩ | ⟨b, rfl⟩
    · obtain ⟨q, rfl, rfl⟩ := (decodeSeq_eq_ok_iff x i).mp hd
      exact .inl ⟨q, hc, rfl⟩
    · exact .inr ⟨b, hc, hd⟩
  · cases h

/-- A placed state of the sequencer: the next step runs its row as a whole. -/
theorem step_placeSeq (q : SeqState) (s : State) :
    step (placeSeq q s) = exec q.row { placeSeq q s with host := s.host } := by
  have hfetch : fetch (placeSeq q s) = .sequencer q.code := rfl
  have htaken : taken (placeSeq q s) = { placeSeq q s with host := s.host } := rfl
  simp only [step, hfetch, htaken, runCode, decode_code]

/-- A placed call is served by the next step, as a whole. -/
theorem step_placeCall {c : Code} {i : Instr} (s : State) (hc : callable c = true) (hd : decode c = .ok i) :
    step (placeCall c s) = exec i { placeCall c s with host := s.host, bench := s.bench } := by
  have hrest : (if s.busy then SeqState.idle else s.seq).resting = true := by
    cases hb : s.busy with
    | true => rfl
    | false => exact (busy_eq_false_iff s).mp hb
  have hfree : (placeCall c s).free = true := by simp [State.free, placeCall, placed, hrest]
  have hfetch : fetch (placeCall c s) = .called c := fetch_call (rest := s.bench) (.inr ⟨s.host, rfl⟩) rfl hc hfree
  have htaken : taken (placeCall c s) = { placeCall c s with host := s.host, bench := s.bench } := by
    rw [taken, benchRest, hfetch]
    rfl
  simp only [step, hfetch, htaken, runCode, hd]
  rfl

/-- Settles O9: a code of `SEQ` is placed in `SEQ`, and a command byte as a call that is served at once. -/
theorem placedTableWordRunsNext : Obligations.PlacedTableWordRunsNext := by
  intro s nbits w i hi
  rcases decodeTableWord_eq_some hi with ⟨q, hcode, rfl⟩ | ⟨b, hcode, hd⟩
  · have hplace : s.withFetchWord nbits w = placeSeq q s := by
      simp only [State.withFetchWord, hcode, seqOfCode_code]
    have hformat : q.row.format = .seq4 := format_of_decode (decode_code q)
    refine ⟨{ placeSeq q s with host := s.host }, by rw [hplace, step_placeSeq], rfl, fun hcmd => ?_, fun _ => decode_code q⟩
    rw [hformat] at hcmd
    cases hcmd
  · have hplace : s.withFetchWord nbits w = placeCall (.cmd8 b) s := by simp only [State.withFetchWord, hcode]
    have hformat : i.format = .cmd8 := format_of_decode hd
    refine ⟨{ placeCall (.cmd8 b) s with host := s.host, bench := s.bench }, by rw [hplace, step_placeCall s rfl hd], rfl,
      fun _ => ⟨rfl, fun hrest => ?_⟩, fun hseq => ?_⟩
    · simp [placeCall, placed, hrest]
    · rw [hformat] at hseq
      cases hseq

end Sys2Proof.Machine
end

section
/-! What the end of a phase can be (R143): one inversion lemma over the table of phases, from which the facts about every step at the
two levels of R9 follow. -/

namespace Sys2Proof.Machine

/-! ## The names of the table's columns -/

/-- The phase that follows within a primitive where nothing but the phase changes (R143). -/
def Phase.following : Phase → Option Phase
  | .rstLow => some .rstWait
  | .rstWait => some .rstSample
  | .wrLow => some .wrHigh
  | .rdLow => some .rdWait
  | .rdWait => some .rdSample
  | .pollGap => some .idle
  | .idle | .rstSample | .rstRec | .wrHigh | .rdSample | .rdRem => none

/-- The sequencer states whose body begins by sending a byte (R204, R205, R208, R209). -/
def SeqState.sends : SeqState → Bool
  | .selectAll1 | .startConversion | .selectAll2 | .readScratchpad => true
  | .idle | .reset1 | .conversionWait | .reset2 | .validate | .committed | .discarded | .aborted | .timedOut => false

/-- The command byte such a state sends (R204, R205, R208, R209). -/
def SeqState.command : SeqState → Byte
  | .startConversion => Config.cmdConvert
  | .readScratchpad => Config.cmdReadSp
  | .selectAll1 | .selectAll2 | .idle | .reset1 | .conversionWait | .reset2 | .validate => Config.cmdSelectAll
  | .committed | .discarded | .aborted | .timedOut => Config.cmdSelectAll

/-- The successor of a state whose body is one byte sent (R204, R205, R208). -/
def SeqState.afterByte : SeqState → SeqState
  | .selectAll1 => .startConversion
  | .startConversion => .conversionWait
  | .selectAll2 => .readScratchpad
  | other => other

/-- A write slot of a byte has gone: `SHR` shifted, the bit counted (R160). -/
def shiftOut (s : State) : State := { s with shr := shiftOutByte s.shr, bitcnt := s.bitcnt + 1 }

/-- A bit of a byte has come (R161). -/
def bitIn (s : State) : State := shiftIn s.rxbit s

/-- A byte of the scratchpad has come, its last bit with it (R209). -/
def byteIn (s : State) : State := (bitIn s).storeSp (bitIn s).shr

/-- A poll has been counted (R206). -/
def pollCounted (s : State) : State := { s with pollcnt := s.pollcnt + 1 }

/-! ## The table of phases -/

/-- What the state at the end of a phase can be, with the condition of each way. -/
inductive PhaseEnd (s : State) : State → Prop
  | rests (hph : s.ph = .idle) (hseq : s.seq.resting = true) : PhaseEnd s s
  | beginsReset (hph : s.ph = .idle) (hseq : s.seq = .reset1 ∨ s.seq = .reset2) : PhaseEnd s (goTo .rstLow s)
  | beginsByte (hph : s.ph = .idle) (hseq : s.seq.sends = true) : PhaseEnd s (startTx s.seq.command s)
  | beginsPoll (hph : s.ph = .idle) (hseq : s.seq = .conversionWait) : PhaseEnd s (goTo .rdLow s)
  | validates (hph : s.ph = .idle) (hseq : s.seq = .validate) : PhaseEnd s (validateBody s)
  | follows (p : Phase) (hph : s.ph.following = some p) : PhaseEnd s (goTo p s)
  | samplesPresence (hph : s.ph = .rstSample) (hlow : (sample s).1 = false) : PhaseEnd s (goTo .rstRec (sample s).2)
  | absentCalled (hph : s.ph = .rstSample) (hhigh : (sample s).1 = true) (huse : s.use = .reset) :
      PhaseEnd s (callDone (.presence .presenceFailure) { (sample s).2 with pres := false })
  | absent (hph : s.ph = .rstSample) (hhigh : (sample s).1 = true) (huse : s.use ≠ .reset) :
      PhaseEnd s { raiseFailure .presenceFailure (sample s).2 with ph := .idle }
  | presentCalled (hph : s.ph = .rstRec) (huse : s.use = .reset) :
      PhaseEnd s (callDone (.presence .success) { s with pres := true })
  | present (hph : s.ph = .rstRec) (huse : s.use ≠ .reset) :
      PhaseEnd s (leaveTo s.seq.afterPresence { s with pres := true })
  | wroteCalled (v : Bit) (hph : s.ph = .wrHigh) (huse : s.use = .write v) : PhaseEnd s (callDone .none s)
  | sentBit (hph : s.ph = .wrHigh) (huse : ∀ v, s.use ≠ .write v) (hcnt : s.bitcnt + 1 ≠ 8) :
      PhaseEnd s (goTo .wrLow (shiftOut s))
  | sentByteCalled (hph : s.ph = .wrHigh) (huse : s.use = .byte) (hcnt : s.bitcnt + 1 = 8) :
      PhaseEnd s (callDone .none (shiftOut s))
  | sentReadSp (hph : s.ph = .wrHigh) (huse : ∀ v, s.use ≠ .write v) (huse' : s.use ≠ .byte) (hcnt : s.bitcnt + 1 = 8)
      (hseq : s.seq = .readScratchpad) :
      PhaseEnd s (startRx { shiftOut s with bytecnt := 0 })
  | sentByte (hph : s.ph = .wrHigh) (huse : ∀ v, s.use ≠ .write v) (huse' : s.use ≠ .byte) (hcnt : s.bitcnt + 1 = 8)
      (hseq : s.seq ≠ .readScratchpad) :
      PhaseEnd s (leaveTo s.seq.afterByte
        { shiftOut s with pollcnt := if s.seq = .startConversion then 0 else s.pollcnt })
  | samplesBit (hph : s.ph = .rdSample) : PhaseEnd s (goTo .rdRem { (sample s).2 with rxbit := (sample s).1 })
  | readCalled (hph : s.ph = .rdRem) (huse : s.use = .read) : PhaseEnd s (callDone (.bit s.rxbit) s)
  | receivedBit (hph : s.ph = .rdRem) (huse : s.use ≠ .read) (huse' : s.use = .byte ∨ s.seq ≠ .conversionWait)
      (hcnt : s.bitcnt + 1 ≠ 8) : PhaseEnd s (goTo .rdLow (bitIn s))
  | receivedByteCalled (hph : s.ph = .rdRem) (huse : s.use = .byte) (hcnt : s.bitcnt + 1 = 8) :
      PhaseEnd s (callDone (.byte (bitIn s).shr) (bitIn s))
  | receivedByte (hph : s.ph = .rdRem) (huse : s.use ≠ .read) (huse' : s.use ≠ .byte) (hseq : s.seq ≠ .conversionWait)
      (hcnt : s.bitcnt + 1 = 8) (hbytes : s.bytecnt + 1 ≠ 9) : PhaseEnd s (startRx (byteIn s))
  | receivedLast (hph : s.ph = .rdRem) (huse : s.use ≠ .read) (huse' : s.use ≠ .byte) (hseq : s.seq ≠ .conversionWait)
      (hcnt : s.bitcnt + 1 = 8) (hbytes : s.bytecnt + 1 = 9) : PhaseEnd s (leaveTo .validate (byteIn s))
  | polledOne (hph : s.ph = .rdRem) (huse : s.use ≠ .read) (huse' : s.use ≠ .byte) (hseq : s.seq = .conversionWait)
      (hbit : s.rxbit = true) : PhaseEnd s (leaveTo .reset2 (pollCounted s))
  | polledLast (hph : s.ph = .rdRem) (huse : s.use ≠ .read) (huse' : s.use ≠ .byte) (hseq : s.seq = .conversionWait)
      (hbit : s.rxbit = false) (hlimit : s.par.pollLimit = some (s.pollcnt + 1)) :
      PhaseEnd s { raiseFailure .conversionTimeout (pollCounted s) with ph := .idle }
  | polledZero (hph : s.ph = .rdRem) (huse : s.use ≠ .read) (huse' : s.use ≠ .byte) (hseq : s.seq = .conversionWait)
      (hbit : s.rxbit = false) (hlimit : s.par.pollLimit ≠ some (s.pollcnt + 1)) :
      PhaseEnd s (goTo .pollGap (pollCounted s))

variable {s u : State}

/-! ## Every end of a phase is in the table -/

theorem phaseEnd_beginBody (hph : s.ph = .idle) : PhaseEnd s (beginBody s) := by
  cases hseq : s.seq with
  | idle | committed | discarded | aborted | timedOut =>
    simpa only [beginBody, hseq] using PhaseEnd.rests hph (by rw [hseq]; rfl)
  | reset1 => simpa only [beginBody, hseq] using PhaseEnd.beginsReset hph (.inl hseq)
  | reset2 => simpa only [beginBody, hseq] using PhaseEnd.beginsReset hph (.inr hseq)
  | selectAll1 | selectAll2 | startConversion | readScratchpad =>
    simpa only [beginBody, hseq, SeqState.command] using PhaseEnd.beginsByte hph (by rw [hseq]; rfl)
  | conversionWait => simpa only [beginBody, hseq] using PhaseEnd.beginsPoll hph hseq
  | validate => simpa only [beginBody, hseq] using PhaseEnd.validates hph hseq

theorem byteSent_of_readScratchpad (h : s.seq = .readScratchpad) : byteSent s = startRx { s with bytecnt := 0 } := by
  rw [byteSent, h]

theorem byteSent_of_ne (h : s.seq ≠ .readScratchpad) :
    byteSent s = leaveTo s.seq.afterByte { s with pollcnt := if s.seq = .startConversion then 0 else s.pollcnt } := by
  cases hseq : s.seq with
  | readScratchpad => exact absurd hseq h
  | selectAll1 | startConversion | selectAll2 => simp [byteSent, hseq, SeqState.afterByte, leaveTo]
  | idle | reset1 | conversionWait | reset2 | validate | committed | discarded | aborted | timedOut =>
    simp [byteSent, hseq, SeqState.afterByte, leaveTo]

theorem phaseEnd_sentBitEnded (hph : s.ph = .wrHigh) (huse : ∀ v, s.use ≠ .write v) : PhaseEnd s (sentBitEnded s) := by
  simp only [sentBitEnded]
  split_ifs with hcnt hbyte
  · exact .sentByteCalled hph hbyte hcnt
  · by_cases hseq : s.seq = .readScratchpad
    · have hsent := byteSent_of_readScratchpad (s := shiftOut s) hseq
      exact hsent ▸ .sentReadSp hph huse hbyte hcnt hseq
    · have hsent := byteSent_of_ne (s := shiftOut s) hseq
      exact hsent ▸ .sentByte hph huse hbyte hcnt hseq
  · exact .sentBit hph huse hcnt

theorem phaseEnd_writeSlotEnded (hph : s.ph = .wrHigh) : PhaseEnd s (writeSlotEnded s) := by
  cases huse : s.use with
  | write v => simpa only [writeSlotEnded, huse] using PhaseEnd.wroteCalled v hph huse
  | sequencer | reset | read | byte =>
    simpa only [writeSlotEnded, huse] using phaseEnd_sentBitEnded hph (by simp [huse])

theorem phaseEnd_receivedBitEnded (hph : s.ph = .rdRem) (huse : s.use ≠ .read)
    (huse' : s.use = .byte ∨ s.seq ≠ .conversionWait) : PhaseEnd s (receivedBitEnded s) := by
  simp only [receivedBitEnded]
  split_ifs with hcnt hbyte
  · exact .receivedByteCalled hph hbyte hcnt
  · have hseq : s.seq ≠ .conversionWait := huse'.resolve_left hbyte
    simp only [byteReceived]
    split_ifs with hbytes
    · exact .receivedLast hph huse hbyte hseq hcnt hbytes
    · exact .receivedByte hph huse hbyte hseq hcnt hbytes
  · exact .receivedBit hph huse huse' hcnt

theorem phaseEnd_pollEnded (hph : s.ph = .rdRem) (huse : s.use ≠ .read) (huse' : s.use ≠ .byte)
    (hseq : s.seq = .conversionWait) : PhaseEnd s (pollEnded s) := by
  simp only [pollEnded]
  split_ifs with hbit hlimit
  · exact .polledOne hph huse huse' hseq hbit
  · exact .polledLast hph huse huse' hseq (by simpa using hbit) hlimit
  · exact .polledZero hph huse huse' hseq (by simpa using hbit) hlimit

theorem phaseEnd_readSlotEnded (hph : s.ph = .rdRem) : PhaseEnd s (readSlotEnded s) := by
  cases huse : s.use with
  | read => simpa only [readSlotEnded, huse] using PhaseEnd.readCalled hph huse
  | byte => simpa only [readSlotEnded, huse] using phaseEnd_receivedBitEnded hph (by simp [huse]) (.inl huse)
  | sequencer | reset | write v =>
    simp only [readSlotEnded, huse]
    split_ifs with hseq
    · exact phaseEnd_pollEnded hph (by simp [huse]) (by simp [huse]) hseq
    · exact phaseEnd_receivedBitEnded hph (by simp [huse]) (.inr hseq)

theorem phaseEnd_presenceFailed (hph : s.ph = .rstSample) (hhigh : (sample s).1 = true) :
    PhaseEnd s (presenceFailed (sample s).2) := by
  unfold presenceFailed
  split_ifs with huse
  · exact .absentCalled hph hhigh huse
  · exact .absent hph hhigh huse

theorem phaseEnd_presenceFound (hph : s.ph = .rstRec) : PhaseEnd s (presenceFound s) := by
  unfold presenceFound
  split_ifs with huse
  · exact .presentCalled hph huse
  · exact .present hph huse

/-- What the end of a phase leads to is a line of the table (R143). -/
theorem phaseEnd_phaseEnded (s : State) : PhaseEnd s (phaseEnded s) := by
  cases hph : s.ph with
  | idle => simpa only [phaseEnded, hph] using phaseEnd_beginBody hph
  | rstSample =>
    simp only [phaseEnded, hph]
    split_ifs with hsample
    · exact phaseEnd_presenceFailed hph hsample
    · exact .samplesPresence hph (by simpa using hsample)
  | rstRec => simpa only [phaseEnded, hph] using phaseEnd_presenceFound hph
  | wrHigh => simpa only [phaseEnded, hph] using phaseEnd_writeSlotEnded hph
  | rdSample => simpa only [phaseEnded, hph] using PhaseEnd.samplesBit hph
  | rdRem => simpa only [phaseEnded, hph] using phaseEnd_readSlotEnded hph
  | rstLow | rstWait | wrLow | rdLow | rdWait | pollGap =>
    simpa only [phaseEnded, hph] using PhaseEnd.follows _ (by rw [hph]; rfl)

end Sys2Proof.Machine
end

section
/-! The invariant at the end of a phase (R26, R28, R30, R37, R143). -/

namespace Sys2Proof.Machine

variable {s u : State}

/-! ## The invariant taken apart -/

/-- The part of the invariant that speaks of no line mode and no timer. -/
structure State.Fits (s : State) : Prop where
  bitcnt_le : s.bitcnt.toNat ≤ 8
  bytecnt_le : s.bytecnt.toNat ≤ 9
  reading_wf : s.reading.wf = true
  par_wf : s.par.wf = true
  phase : s.phaseFits = true
  seq : s.seqFits = true

/-- The invariant is that part, the line mode and the timer. -/
theorem wf_iff (s : State) : s.wf = true ↔ s.Fits ∧ s.modeFits = true ∧ s.levelFits = true := by
  simp only [State.wf, Bool.and_eq_true, decide_eq_true_eq]
  constructor
  · rintro ⟨⟨⟨⟨⟨⟨⟨hbit, hbyte⟩, hread⟩, hpar⟩, hphase⟩, hmode⟩, hlevel⟩, hseq⟩
    exact ⟨⟨hbit, hbyte, hread, hpar, hphase, hseq⟩, hmode, hlevel⟩
  · rintro ⟨⟨hbit, hbyte, hread, hpar, hphase, hseq⟩, hmode, hlevel⟩
    exact ⟨⟨⟨⟨⟨⟨⟨hbit, hbyte⟩, hread⟩, hpar⟩, hphase⟩, hmode⟩, hlevel⟩, hseq⟩

/-- What may be sending a bit: a `WRITE_BIT` or a byte called by itself, or the sequencer's byte (R136, R160). -/
theorem writes_iff (s : State) :
    s.writes = true ↔ (∃ v, s.use = .write v) ∨ (s.use = .byte ∧ s.bitcnt.toNat < 8) ∨
      (s.use = .sequencer ∧ s.seq.sends = true ∧ s.bitcnt.toNat < 8) := by
  have hsends : s.seq.sends = (s.seq == .selectAll1 || s.seq == .startConversion || s.seq == .selectAll2 ||
      s.seq == .readScratchpad) := by cases s.seq <;> rfl
  cases huse : s.use <;> simp [State.writes, huse, hsends]

/-- What may be reading a bit: a `READ_BIT` or a byte called by itself, the sequencer's poll, or its scratchpad byte (R137, R161). -/
theorem reads_iff (s : State) :
    s.reads = true ↔ s.use = .read ∨ (s.use = .byte ∧ s.bitcnt.toNat < 8) ∨ (s.use = .sequencer ∧
      (s.seq = .conversionWait ∨ (s.seq = .readScratchpad ∧ s.bitcnt.toNat < 8 ∧ s.bytecnt.toNat < 9))) := by
  cases huse : s.use <;> simp [State.reads, huse, and_assoc]

/-- What may be resetting: a `RESET_DETECT` called by itself, or one of the sequencer's two reset states (R135). -/
theorem inReset_iff (s : State) :
    s.inReset = true ↔ s.use = .reset ∨ (s.use = .sequencer ∧ (s.seq = .reset1 ∨ s.seq = .reset2)) := by
  cases huse : s.use <;> simp [State.inReset, huse]

/-! ## What the phase says -/

theorem phaseFits_idle (hph : s.ph = .idle) : s.phaseFits = true ↔ s.use = .sequencer := by
  simp [State.phaseFits, hph]

theorem phaseFits_reset (hph : s.ph = .rstLow ∨ s.ph = .rstWait ∨ s.ph = .rstSample ∨ s.ph = .rstRec) :
    s.phaseFits = s.inReset := by
  rcases hph with h | h | h | h <;> simp [State.phaseFits, h]

theorem phaseFits_write (hph : s.ph = .wrLow ∨ s.ph = .wrHigh) : s.phaseFits = s.writes := by
  rcases hph with h | h <;> simp [State.phaseFits, h]

theorem phaseFits_read (hph : s.ph = .rdLow ∨ s.ph = .rdWait ∨ s.ph = .rdSample ∨ s.ph = .rdRem) :
    s.phaseFits = s.reads := by
  rcases hph with h | h | h | h <;> simp [State.phaseFits, h]

theorem State.Fits.use_of_idle (hs : s.Fits) (hph : s.ph = .idle) : s.use = .sequencer := (phaseFits_idle hph).mp hs.phase

/-- A reset frame that was not called is the sequencer's. -/
theorem State.Fits.reset_of_not_called (hs : s.Fits) (hph : s.ph = .rstSample ∨ s.ph = .rstRec) (huse : s.use ≠ .reset) :
    s.use = .sequencer ∧ (s.seq = .reset1 ∨ s.seq = .reset2) := by
  have hfits := hs.phase
  rw [phaseFits_reset (.inr (.inr hph)), inReset_iff] at hfits
  exact hfits.resolve_left huse

/-- A byte on the line is one that was called for, or the sequencer's; its count is below eight. -/
theorem State.Fits.writes_of_wrHigh (hs : s.Fits) (hph : s.ph = .wrHigh) (huse : ∀ v, s.use ≠ .write v) :
    (s.use = .byte ∨ (s.use = .sequencer ∧ s.seq.sends = true)) ∧ s.bitcnt.toNat < 8 := by
  have hfits := hs.phase
  rw [phaseFits_write (.inr hph), writes_iff] at hfits
  rcases hfits with ⟨v, hv⟩ | ⟨hbyte, hcnt⟩ | ⟨hown, hsends, hcnt⟩
  · exact absurd hv (huse v)
  · exact ⟨.inl hbyte, hcnt⟩
  · exact ⟨.inr ⟨hown, hsends⟩, hcnt⟩

/-- A bit of a byte that is being received belongs to a byte that was called for, or to the scratchpad. -/
theorem State.Fits.reads_of_rdRem (hs : s.Fits) (hph : s.ph = .rdRem) (huse : s.use ≠ .read)
    (huse' : s.use = .byte ∨ s.seq ≠ .conversionWait) :
    (s.use = .byte ∨ (s.use = .sequencer ∧ s.seq = .readScratchpad ∧ s.bytecnt.toNat < 9)) ∧ s.bitcnt.toNat < 8 := by
  have hfits := hs.phase
  rw [phaseFits_read (.inr (.inr (.inr hph))), reads_iff] at hfits
  rcases hfits with hread | ⟨hbyte, hcnt⟩ | ⟨hown, hpoll | ⟨hseq, hcnt, hbytes⟩⟩
  · exact absurd hread huse
  · exact ⟨.inl hbyte, hcnt⟩
  · rcases huse' with hbyte | hseq
    · rw [hown] at hbyte
      cases hbyte
    · exact absurd hpoll hseq
  · exact ⟨.inr ⟨hown, hseq, hbytes⟩, hcnt⟩

/-- What reads and was not called is the sequencer's. -/
theorem State.Fits.own_of_rdRem (hs : s.Fits) (hph : s.ph = .rdRem) (huse : s.use ≠ .read) (huse' : s.use ≠ .byte) :
    s.use = .sequencer := by
  have hfits := hs.phase
  rw [phaseFits_read (.inr (.inr (.inr hph))), reads_iff] at hfits
  rcases hfits with hread | ⟨hbyte, -⟩ | ⟨hown, -⟩
  · exact absurd hread huse
  · exact absurd hbyte huse'
  · exact hown

/-! ## Counting to eight and to nine -/

theorem bitcnt_succ_le {c : BitVec 4} (h : c.toNat < 8) : (c + 1).toNat ≤ 8 := by bv_omega

theorem bitcnt_succ_lt {c : BitVec 4} (h : c.toNat < 8) (hne : c + 1 ≠ 8) : (c + 1).toNat < 8 := by bv_omega

theorem bytecnt_succ_le {c : BitVec 4} (h : c.toNat < 9) : (c + 1).toNat ≤ 9 := by bv_omega

theorem bytecnt_succ_lt {c : BitVec 4} (h : c.toNat < 9) (hne : c + 1 ≠ 9) : (c + 1).toNat < 9 := by bv_omega

/-! ## What the sequencer's state says -/

theorem seqFits_conversionWait (hseq : s.seq = .conversionWait) :
    s.seqFits = true ↔ ∀ n, s.par.pollLimit = some n → s.pollcnt < n := by
  cases hlimit : s.par.pollLimit <;> simp [State.seqFits, hseq, hlimit]

/-- A wait that begins at `POLLCNT` = 0 is below any limit (R6, R206). -/
theorem zero_lt_pollLimit {p : Config.Params} (hp : p.wf = true) {n : Nat} (hn : p.pollLimit = some n) : 0 < n := by
  simp only [Config.Params.wf, hn, Bool.and_eq_true, decide_eq_true_eq] at hp
  omega

/-- A poll that read 0 and was not the last the limit allows leaves the count below the limit (R206). -/
theorem pollcnt_succ_lt (h : ∀ n, s.par.pollLimit = some n → s.pollcnt < n)
    (hlimit : s.par.pollLimit ≠ some (s.pollcnt + 1)) {n : Nat} (hn : s.par.pollLimit = some n) : s.pollcnt + 1 < n := by
  have hlt := h n hn
  have hne : s.pollcnt + 1 ≠ n := fun he => hlimit (he ▸ hn)
  omega

/-- The states without a clause of their own. -/
def SeqState.unconstrained : SeqState → Bool
  | .reset1 | .selectAll1 | .startConversion | .reset2 | .selectAll2 | .readScratchpad | .validate | .aborted => true
  | .idle | .conversionWait | .committed | .discarded | .timedOut => false

theorem seqFits_of_unconstrained (h : s.seq.unconstrained = true) : s.seqFits = true := by
  cases hseq : s.seq <;> simp [hseq, SeqState.unconstrained] at h <;> simp [State.seqFits, hseq]

/-! ## The invariant at the end of a phase -/

theorem phaseFits_following {p : Phase} (hp : s.ph.following = some p) (hs : s.phaseFits = true) :
    (goTo p s).phaseFits = true := by
  cases hph : s.ph with
  | rstLow | rstWait =>
    rw [hph] at hp
    cases hp
    rw [phaseFits_reset (by simp [hph])] at hs
    rw [phaseFits_reset (by simp)]
    exact hs
  | wrLow =>
    rw [hph] at hp
    cases hp
    rw [phaseFits_write (by simp [hph])] at hs
    rw [phaseFits_write (by simp)]
    exact hs
  | rdLow | rdWait =>
    rw [hph] at hp
    cases hp
    rw [phaseFits_read (by simp [hph])] at hs
    rw [phaseFits_read (by simp)]
    exact hs
  | pollGap =>
    rw [hph] at hp
    cases hp
    simp only [State.phaseFits, hph, Bool.and_eq_true, beq_iff_eq] at hs
    exact (phaseFits_idle rfl).mpr hs.1
  | idle | rstSample | rstRec | wrHigh | rdSample | rdRem =>
    rw [hph] at hp
    cases hp

theorem State.Fits.validateBody (hs : s.Fits) (hph : s.ph = .idle) : (validateBody s).Fits := by
  have huse := hs.use_of_idle hph
  by_cases hcrc : computeCrc s.spMessage = s.spChecksum
  · rw [validateBody_of_match hcrc]
    exact ⟨hs.bitcnt_le, hs.bytecnt_le, rfl, hs.par_wf, (phaseFits_idle (by exact hph)).mpr huse,
      by simp [State.seqFits, State.spRaw]⟩
  · rw [validateBody_of_mismatch hcrc]
    exact ⟨hs.bitcnt_le, hs.bytecnt_le, rfl, hs.par_wf, (phaseFits_idle (by exact hph)).mpr huse, rfl⟩

/-- The end of a phase keeps what the invariant says of the counters, the Reading State, the phase and `SEQ`. -/
theorem PhaseEnd.fits (h : PhaseEnd s u) (hs : s.Fits) : u.Fits := by
  cases h with
  | rests => exact hs
  | beginsReset hph hseq =>
    exact { hs with phase := (inReset_iff _).mpr (.inr ⟨hs.use_of_idle hph, hseq⟩) }
  | beginsByte hph hseq =>
    exact { hs with
      bitcnt_le := Nat.zero_le 8
      phase := (writes_iff _).mpr (.inr (.inr ⟨hs.use_of_idle hph, hseq, Nat.zero_lt_succ 7⟩)) }
  | beginsPoll hph hseq =>
    exact { hs with phase := (reads_iff _).mpr (.inr (.inr ⟨hs.use_of_idle hph, .inl hseq⟩)) }
  | validates hph hseq => exact hs.validateBody hph
  | follows p hp => exact { hs with phase := phaseFits_following hp hs.phase }
  | samplesPresence hph hlow =>
    have hreset := hs.phase
    rw [phaseFits_reset (by simp [hph])] at hreset
    exact { hs with phase := hreset }
  | absentCalled hph hhigh huse => exact { hs with phase := rfl }
  | absent hph hhigh huse =>
    obtain ⟨hown, -⟩ := hs.reset_of_not_called (.inl hph) huse
    exact { hs with phase := (phaseFits_idle rfl).mpr hown, seq := rfl }
  | presentCalled hph huse => exact { hs with phase := rfl }
  | present hph huse =>
    obtain ⟨hown, hseq⟩ := hs.reset_of_not_called (.inr hph) huse
    refine { hs with phase := (phaseFits_idle rfl).mpr hown, seq := seqFits_of_unconstrained ?_ }
    rcases hseq with hseq | hseq <;> rw [leaveTo_seq, hseq] <;> rfl
  | wroteCalled v hph huse => exact { hs with phase := rfl }
  | sentBit hph huse hcnt =>
    obtain ⟨hsends, hlt⟩ := hs.writes_of_wrHigh hph huse
    have hlt' := bitcnt_succ_lt hlt hcnt
    refine { hs with bitcnt_le := bitcnt_succ_le hlt, phase := (writes_iff _).mpr (.inr ?_) }
    exact hsends.imp (fun hbyte => ⟨hbyte, hlt'⟩) fun ⟨hown, hseq⟩ => ⟨hown, hseq, hlt'⟩
  | sentByteCalled hph huse hcnt =>
    obtain ⟨-, hlt⟩ := hs.writes_of_wrHigh hph (by simp [huse])
    exact { hs with bitcnt_le := bitcnt_succ_le hlt, phase := rfl }
  | sentReadSp hph huse huse' hcnt hseq =>
    obtain ⟨hsends, -⟩ := hs.writes_of_wrHigh hph huse
    obtain ⟨hown, -⟩ := hsends.resolve_left huse'
    exact { hs with
      bitcnt_le := Nat.zero_le 8
      bytecnt_le := Nat.zero_le 9
      phase := (reads_iff _).mpr (.inr (.inr ⟨hown, .inr ⟨hseq, Nat.zero_lt_succ 7, Nat.zero_lt_succ 8⟩⟩)) }
  | sentByte hph huse huse' hcnt hseq =>
    obtain ⟨hsends, hlt⟩ := hs.writes_of_wrHigh hph huse
    obtain ⟨hown, hsends⟩ := hsends.resolve_left huse'
    refine { hs with bitcnt_le := bitcnt_succ_le hlt, phase := (phaseFits_idle rfl).mpr hown, seq := ?_ }
    cases hq : s.seq with
    | selectAll1 | selectAll2 => exact seqFits_of_unconstrained rfl
    | startConversion =>
      refine (seqFits_conversionWait rfl).mpr fun n hn => ?_
      simpa [hq] using zero_lt_pollLimit hs.par_wf hn
    | readScratchpad => exact absurd hq hseq
    | idle | reset1 | conversionWait | reset2 | validate | committed | discarded | aborted | timedOut =>
      rw [hq] at hsends
      cases hsends
  | samplesBit hph =>
    have hreads := hs.phase
    rw [phaseFits_read (by simp [hph])] at hreads
    exact { hs with phase := hreads }
  | readCalled hph huse => exact { hs with phase := rfl }
  | receivedBit hph huse huse' hcnt =>
    obtain ⟨hreads, hlt⟩ := hs.reads_of_rdRem hph huse huse'
    have hlt' := bitcnt_succ_lt hlt hcnt
    refine { hs with bitcnt_le := bitcnt_succ_le hlt, phase := (reads_iff _).mpr (.inr ?_) }
    exact hreads.imp (fun hbyte => ⟨hbyte, hlt'⟩) fun ⟨hown, hseq, hbytes⟩ => ⟨hown, .inr ⟨hseq, hlt', hbytes⟩⟩
  | receivedByteCalled hph huse hcnt =>
    obtain ⟨-, hlt⟩ := hs.reads_of_rdRem hph (by simp [huse]) (.inl huse)
    exact { hs with bitcnt_le := bitcnt_succ_le hlt, phase := rfl }
  | receivedByte hph huse huse' hseq hcnt hbytes =>
    obtain ⟨hreads, -⟩ := hs.reads_of_rdRem hph huse (.inr hseq)
    obtain ⟨hown, hsp, hlt⟩ := hreads.resolve_left huse'
    exact { hs with
      bitcnt_le := Nat.zero_le 8
      bytecnt_le := bytecnt_succ_le hlt
      phase := (reads_iff _).mpr
        (.inr (.inr ⟨hown, .inr ⟨hsp, Nat.zero_lt_succ 7, bytecnt_succ_lt hlt hbytes⟩⟩))
      seq := seqFits_of_unconstrained (by rw [startRx_seq]; exact hsp ▸ rfl) }
  | receivedLast hph huse huse' hseq hcnt hbytes =>
    obtain ⟨hreads, hlt8⟩ := hs.reads_of_rdRem hph huse (.inr hseq)
    obtain ⟨hown, -, hlt⟩ := hreads.resolve_left huse'
    exact { hs with
      bitcnt_le := bitcnt_succ_le hlt8
      bytecnt_le := bytecnt_succ_le hlt
      phase := (phaseFits_idle rfl).mpr hown
      seq := rfl }
  | polledOne hph huse huse' hseq hbit =>
    exact { hs with phase := (phaseFits_idle rfl).mpr (hs.own_of_rdRem hph huse huse'), seq := rfl }
  | polledLast hph huse huse' hseq hbit hlimit =>
    exact { hs with
      phase := (phaseFits_idle rfl).mpr (hs.own_of_rdRem hph huse huse')
      seq := Option.isSome_iff_exists.mpr ⟨_, hlimit⟩ }
  | polledZero hph huse huse' hseq hbit hlimit =>
    have hown := hs.own_of_rdRem hph huse huse'
    have hcount := (seqFits_conversionWait hseq).mp hs.seq
    exact { hs with
      phase := by simp [State.phaseFits, pollCounted, hown, hseq]
      seq := (seqFits_conversionWait (by exact hseq)).mpr fun n hn => pollcnt_succ_lt hcount hlimit hn }

end Sys2Proof.Machine
end

section
/-! The line mode at the two levels of R9 (R37, R139, R143), and the invariant kept by a micro-operation, a step of the symbol level and a
tick. -/

namespace Sys2Proof.Machine

variable {s u : State}

/-! ## What a micro-operation, a symbol step and a tick can be -/

/-- A micro-operation of a primitive in progress: the line mode, the phase's `DELAY`, or its `SAMPLE` (R9 a). -/
theorem microStep_cases (hph : s.ph ≠ .idle) :
    (s.ph.timed = true ∧ s.dqOe ≠ s.ph.drives ∧ microStep s = { s with dqOe := s.ph.drives }) ∨
    (s.ph.timed = true ∧ s.dqOe = s.ph.drives ∧ microStep s = phaseEnded (delay s.phaseTime s)) ∨
    ((s.ph = .rstSample ∨ s.ph = .rdSample) ∧ microStep s = phaseEnded s) := by
  cases ht : s.ph.timed with
  | true =>
    by_cases hm : s.dqOe = s.ph.drives
    · exact .inr (.inl ⟨rfl, hm, microStep_delay s ht hm⟩)
    · exact .inl ⟨rfl, hm, microStep_mode s ht hm⟩
  | false =>
    refine .inr (.inr ⟨?_, by simp [microStep, ht]⟩)
    cases h : s.ph <;> simp [h, Phase.timed] at ht hph ⊢

/-- A step of the symbol level with no primitive in progress: the body begins, and with it its first micro-operation (log 5). -/
theorem symbolStep_idle (hph : s.ph = .idle) :
    symbolStep s = if (beginBody s).ph = .idle then beginBody s else microStep (beginBody s) := by
  rw [symbolStep, if_pos hph]

/-- The end of a phase, and the next phase entered; or a microsecond (R23, R143). -/
theorem tick_of_zero (h : s.tmr = 0) : tick s = enterPhase (phaseEnded s) := if_pos h

theorem tick_of_ne_zero (h : s.tmr ≠ 0) : tick s = { s with tmr := s.tmr - 1 } := if_neg h

/-! ## The line mode at the end of a phase -/

/-- The phases in which the line has been released before (R143). -/
def Phase.released : Phase → Bool
  | .rstSample | .rstRec | .rdSample | .rdRem | .pollGap => true
  | .idle | .rstLow | .rstWait | .wrLow | .wrHigh | .rdLow | .rdWait => false

/-- The line mode fits: off in those phases, and the phase's own in any primitive but for the symbol level's next micro-operation. -/
theorem modeFits_iff (s : State) :
    s.modeFits = true ↔ (s.ph.released = true → s.dqOe = false) ∧
      (s.par.level ≠ .symbol → s.ph ≠ .idle → s.dqOe = s.ph.drives) := by
  cases hph : s.ph <;> simp [State.modeFits, hph, Phase.released, Phase.drives] <;> tauto

/-- The end of a phase only ever releases the line. -/
theorem PhaseEnd.dqOe_eq (h : PhaseEnd s u) : u.dqOe = s.dqOe ∨ u.dqOe = false := by
  cases h with
  | validates => exact .inl (by simp [validateBody_eq])
  | absent | polledLast => exact .inr rfl
  | _ => exact .inl rfl

/-- `TMR` belongs to the ticks (R23). -/
theorem PhaseEnd.tmr_eq (h : PhaseEnd s u) : u.tmr = s.tmr := by
  cases h with
  | validates => simp [validateBody_eq]
  | _ => rfl

@[simp] theorem phaseEnded_tmr (s : State) : (phaseEnded s).tmr = s.tmr := (phaseEnd_phaseEnded s).tmr_eq

theorem phaseEnded_idle (hph : s.ph = .idle) : phaseEnded s = beginBody s := by rw [phaseEnded, hph]

theorem phaseEnded_fits (hs : s.Fits) : (phaseEnded s).Fits := (phaseEnd_phaseEnded s).fits hs

/-- A low phase is followed by the released wait of its symbol (R139). -/
theorem phaseEnded_of_drives (hd : s.ph.drives = true) :
    ∃ p, phaseEnded s = goTo p s ∧ p.released = false ∧ p.drives = false ∧ p ≠ .idle := by
  cases hph : s.ph <;> simp [hph, Phase.drives] at hd
  · exact ⟨.rstWait, by simp [phaseEnded, hph], by decide⟩
  · exact ⟨.wrHigh, by simp [phaseEnded, hph], by decide⟩
  · exact ⟨.rdWait, by simp [phaseEnded, hph], by decide⟩

/-- A body that begins on the line begins with a low phase (R139). -/
theorem beginBody_drives (hph : s.ph = .idle) (h : (beginBody s).ph ≠ .idle) : (beginBody s).ph.drives = true := by
  cases hseq : s.seq with
  | idle | committed | discarded | aborted | timedOut => simp [beginBody, hseq, hph] at h
  | validate => simp [beginBody, hseq, validateBody_eq, hph] at h
  | reset1 | reset2 | conversionWait => simp [beginBody, hseq, Phase.drives]
  | selectAll1 | selectAll2 | startConversion | readScratchpad => simp [beginBody, hseq, Phase.drives]

/-- Where the line mode is the phase's, the line is released when the primitive ends and in the phases after its wait. -/
theorem phaseEnded_dqOe_false (hm : s.dqOe = s.ph.drives)
    (hu : (phaseEnded s).ph.released = true ∨ (phaseEnded s).ph = .idle) : (phaseEnded s).dqOe = false := by
  cases hd : s.ph.drives with
  | true =>
    obtain ⟨p, hp, hrel, -, hidle⟩ := phaseEnded_of_drives hd
    rw [hp, goTo_ph, hrel] at hu
    simp [hidle] at hu
  | false =>
    rcases (phaseEnd_phaseEnded s).dqOe_eq with h | h
    · rw [h, hm, hd]
    · exact h

/-- A sample is taken with the line released, and its end leaves it so. -/
theorem phaseEnded_dqOe_of_released (h : s.dqOe = false) : (phaseEnded s).dqOe = false := by
  rcases (phaseEnd_phaseEnded s).dqOe_eq with he | he
  · rw [he, h]
  · exact he

/-! ## The symbol level keeps the invariant -/

/-- What the invariant is at the symbol level, but for the parameters. -/
structure State.SymbolFits (s : State) : Prop where
  fits : s.Fits
  line : s.ph.released = true → s.dqOe = false

/-- A micro-operation keeps it, and the line is released where the primitive ends. -/
theorem State.SymbolFits.microStep (hs : s.SymbolFits) (hph : s.ph ≠ .idle) :
    (microStep s).SymbolFits ∧ (microStep s).quiet := by
  rcases microStep_cases hph with ⟨-, -, he⟩ | ⟨-, hm, he⟩ | ⟨hsample, he⟩
  · rw [he]
    refine ⟨⟨{ hs.fits with }, fun hrel => ?_⟩, fun hidle => absurd hidle hph⟩
    have hrel' : s.ph.released = true := hrel
    cases h : s.ph <;> simp [h, Phase.released] at hrel' <;> rfl
  · rw [he]
    have hfits : (delay s.phaseTime s).Fits := { hs.fits with }
    have hoff := phaseEnded_dqOe_false (s := delay s.phaseTime s) hm
    exact ⟨⟨phaseEnded_fits hfits, fun h => hoff (.inl h)⟩, fun h => hoff (.inr h)⟩
  · have hoff := phaseEnded_dqOe_of_released (hs.line (by rcases hsample with h | h <;> rw [h] <;> rfl))
    rw [he]
    exact ⟨⟨phaseEnded_fits hs.fits, fun _ => hoff⟩, fun _ => hoff⟩

/-- A phase that drives the line is none of those after its release. -/
theorem released_of_drives {p : Phase} (h : p.drives = true) : p.released = false := by
  cases p <;> simp [Phase.drives] at h <;> rfl

theorem State.SymbolFits.symbolStep (hs : s.SymbolFits) :
    (symbolStep s).SymbolFits ∧ (s.quiet → (symbolStep s).quiet) := by
  by_cases hph : s.ph = .idle
  · rw [symbolStep_idle hph]
    have hfits : (beginBody s).Fits := phaseEnded_idle hph ▸ phaseEnded_fits hs.fits
    split_ifs with hidle
    · refine ⟨⟨hfits, fun h => by simp [hidle, Phase.released] at h⟩, fun hquiet _ => ?_⟩
      exact phaseEnded_idle hph ▸ phaseEnded_dqOe_of_released (hquiet hph)
    · have hdrives := beginBody_drives hph hidle
      have hbegun : (beginBody s).SymbolFits := ⟨hfits, fun h => by simp [released_of_drives hdrives] at h⟩
      obtain ⟨hmicro, hquiet⟩ := hbegun.microStep hidle
      exact ⟨hmicro, fun _ => hquiet⟩
  · obtain ⟨hmicro, hquiet⟩ := hs.microStep hph
    rw [symbolStep_inside s hph]
    exact ⟨hmicro, fun _ => hquiet⟩

@[simp] theorem beginBody_tmr (s : State) : (beginBody s).tmr = s.tmr := by
  unfold beginBody
  split <;> simp [validateBody_eq]

@[simp] theorem microStep_tmr (s : State) : (microStep s).tmr = s.tmr := by
  unfold microStep
  split_ifs <;> simp

@[simp] theorem symbolStep_tmr (s : State) : (symbolStep s).tmr = s.tmr := by
  unfold symbolStep
  split_ifs <;> simp

/-! ## The tick level keeps the invariant -/

/-- What the invariant is at the tick level, but for the parameters. -/
structure State.TickFits (s : State) : Prop where
  fits : s.Fits
  line : s.ph ≠ .idle → s.dqOe = s.ph.drives
  timer : s.ph.timed = false → s.ph ≠ .idle → s.tmr = 0

/-- A sample phase takes no time, and the line has been released before it (R143). -/
theorem timed_of_not_released {p : Phase} (h : p.released = false) (hne : p ≠ .idle) : p.timed = true := by
  cases p <;> simp [Phase.released] at h hne <;> rfl

theorem drives_of_not_timed {p : Phase} (h : p.timed = false) : p.drives = false := by
  cases p <;> simp [Phase.timed] at h <;> rfl

/-- A phase is entered with its line mode, and its time in `TMR` (R143). -/
theorem State.Fits.enterPhase (hs : s.Fits) (hline : s.ph.released = true → s.dqOe = false) (htmr : s.tmr = 0) :
    (enterPhase s).TickFits := by
  cases ht : s.ph.timed with
  | true =>
    rw [enterPhase_timed s ht]
    exact ⟨{ hs with }, fun _ => rfl, fun h => by simp [ht] at h⟩
  | false =>
    rw [enterPhase_untimed s ht]
    refine ⟨hs, fun hne => ?_, fun _ _ => htmr⟩
    rw [drives_of_not_timed ht]
    cases hrel : s.ph.released with
    | true => exact hline hrel
    | false =>
      rw [timed_of_not_released hrel hne] at ht
      cases ht

/-- The mode and the event of a timed phase are no matter of a state without a primitive. -/
theorem enterPhase_quiet (h : s.quiet) : (enterPhase s).quiet := by
  intro hph
  rw [enterPhase_ph] at hph
  rw [enterPhase_untimed s (by rw [hph]; rfl)]
  exact h hph

/-- What the end of a phase leaves of the line, with the line mode the phase's. -/
theorem State.TickFits.phaseEnded_line (hs : s.TickFits) :
    ((phaseEnded s).ph.released = true → (phaseEnded s).dqOe = false) ∧ (s.quiet → (phaseEnded s).quiet) := by
  by_cases hph : s.ph = .idle
  · refine ⟨fun hrel => ?_, fun hquiet _ => phaseEnded_dqOe_of_released (hquiet hph)⟩
    rw [phaseEnded_idle hph] at hrel
    by_cases hidle : (beginBody s).ph = .idle
    · simp [hidle, Phase.released] at hrel
    · simp [released_of_drives (beginBody_drives hph hidle)] at hrel
  · have hoff := phaseEnded_dqOe_false (hs.line hph)
    exact ⟨fun h => hoff (.inl h), fun _ h => hoff (.inr h)⟩

theorem State.TickFits.tick (hs : s.TickFits) : (tick s).TickFits ∧ (s.quiet → (tick s).quiet) := by
  by_cases htmr : s.tmr = 0
  · obtain ⟨hline, hquiet⟩ := hs.phaseEnded_line
    rw [tick_of_zero htmr]
    exact ⟨(phaseEnded_fits hs.fits).enterPhase hline (by simp [htmr]), fun h => enterPhase_quiet (hquiet h)⟩
  · rw [tick_of_ne_zero htmr]
    exact ⟨⟨{ hs.fits with }, hs.line, fun ht hne => absurd (hs.timer ht hne) htmr⟩, fun h => h⟩

end Sys2Proof.Machine
end

section
/-! What operations do on the line: pulses that are released again, and samples that the oracle answers (R37, R66, R139, R314). -/

namespace Sys2Proof.Machine

/-! ## Events after events -/

theorem lowsReleased_append {es fs : List Event} (he : lowsReleased es = true) (hf : lowsReleased fs = true) :
    lowsReleased (es ++ fs) = true := by
  fun_induction lowsReleased es with
  | case1 => exact hf
  | case2 n m es ih => exact ih he
  | case3 => cases he
  | case4 n es ih => exact ih he
  | case5 b es ih => exact ih he

theorem follows_append (env : List Event → Bit) (before es fs : List Event) :
    follows env before (es ++ fs) = (follows env before es && follows env (before ++ es) fs) := by
  induction es generalizing before with
  | nil => simp [follows]
  | cons e es ih =>
    cases e with
    | low n | rel n => simp [follows, ih]
    | smp b => simp [follows, ih, Bool.and_assoc]

/-! ## What an operation does on the line -/

/-- From `s` to `t` with these events on the line: each pulse released, the line released if anything was done, and each sample past the
plan the oracle's. -/
structure OnLine (s t : State) (es : List Event) : Prop where
  trace_eq : t.trace = s.trace ++ es
  lows : lowsReleased es = true
  untouched : es = [] → t.dqOe = s.dqOe
  released : es ≠ [] → t.dqOe = false
  resets_eq : t.resets = s.resets
  dqIn_eq : s.dqIn = [] → t.dqIn = []
  oracle : s.dqIn = [] → follows (Config.envSample s.resets) s.trace es = true

variable {s t u : State} {es fs : List Event}

theorem OnLine.refl (s : State) : OnLine s s [] where
  trace_eq := (List.append_nil _).symm
  lows := rfl
  untouched _ := rfl
  released h := absurd rfl h
  resets_eq := rfl
  dqIn_eq := id
  oracle _ := rfl

theorem OnLine.trans (h : OnLine s t es) (k : OnLine t u fs) : OnLine s u (es ++ fs) where
  trace_eq := by rw [k.trace_eq, h.trace_eq, List.append_assoc]
  lows := lowsReleased_append h.lows k.lows
  untouched hnil := by
    obtain ⟨hes, hfs⟩ := List.append_eq_nil_iff.mp hnil
    rw [k.untouched hfs, h.untouched hes]
  released hne := by
    by_cases hfs : fs = []
    · rw [k.untouched hfs]
      exact h.released fun hes => hne (by rw [hes, hfs]; rfl)
    · exact k.released hfs
  resets_eq := k.resets_eq.trans h.resets_eq
  dqIn_eq hq := k.dqIn_eq (h.dqIn_eq hq)
  oracle hq := by
    have hfs := k.oracle (h.dqIn_eq hq)
    rw [h.resets_eq, h.trace_eq] at hfs
    rw [follows_append, h.oracle hq, hfs]
    rfl

theorem answer_of_no_plan (h : s.dqIn = []) : s.answer = Config.envSample s.resets s.trace := by
  rw [State.answer, h]

theorem onLine_writeBit (v : Bit) (s : State) : OnLine s (writeBit v s) (writeSlotEvents v) := by
  rw [writeBit_eq]
  exact ⟨rfl, by cases v <;> rfl, by cases v <;> simp [writeSlotEvents], fun _ => rfl, rfl, id,
    fun _ => by cases v <;> rfl⟩

theorem onLine_readBit (s : State) : OnLine s (readBit s).2 (readSlotEvents (atReadSample s).answer) := by
  rw [readBit_eq]
  refine ⟨rfl, rfl, by simp [readSlotEvents], fun _ => rfl, rfl, fun hq => by simp [hq], fun hq => ?_⟩
  rw [answer_of_no_plan (s := atReadSample s) hq]
  simp [readSlotEvents, follows, atReadSample]

theorem onLine_resetDetect (s : State) : OnLine s (resetDetect s).2 (resetEvents (atPresenceSample s).answer) := by
  rw [resetDetect_eq]
  have hne : ∀ p, resetEvents p ≠ [] := fun p => by cases p <;> simp [resetEvents]
  have hlows : ∀ p, lowsReleased (resetEvents p) = true := fun p => by cases p <;> rfl
  refine ⟨rfl, hlows _, fun h => absurd h (hne _), fun _ => rfl, rfl, fun hq => by simp [hq], fun hq => ?_⟩
  have hanswer := answer_of_no_plan (s := atPresenceSample s) hq
  cases hp : (atPresenceSample s).answer <;> rw [hp] at hanswer <;>
    simpa [resetEvents, follows, atPresenceSample] using hanswer

/-- A released wait after a slot (R206). -/
theorem onLine_delay (n : Nat) (h : s.dqOe = false) : OnLine s (delay n s) [.rel n] := by
  have he : delay n s = { s with trace := s.trace ++ [.rel n] } := by simp [delay, emit, h]
  rw [he]
  exact ⟨rfl, rfl, by simp, fun _ => h, rfl, id, fun _ => rfl⟩

/-- Some events on the line, or none. -/
def Line (s t : State) : Prop := ∃ es, OnLine s t es

theorem Line.refl (s : State) : Line s s := ⟨[], .refl s⟩

theorem Line.trans (h : Line s t) (k : Line t u) : Line s u :=
  h.elim fun _ h => k.elim fun _ k => ⟨_, h.trans k⟩

/-- The registers that are no part of the line do not matter. -/
theorem Line.congr (h : Line s t) (htrace : u.trace = t.trace) (hdqOe : u.dqOe = t.dqOe) (hresets : u.resets = t.resets)
    (hdqIn : u.dqIn = t.dqIn) : Line s u := by
  obtain ⟨es, h⟩ := h
  exact ⟨es, htrace.trans h.trace_eq, h.lows, fun he => hdqOe.trans (h.untouched he), fun he => hdqOe.trans (h.released he),
    hresets.trans h.resets_eq, fun hq => hdqIn.trans (h.dqIn_eq hq), h.oracle⟩

theorem Line.withSeq (h : Line s t) (q : SeqState) : Line s { t with seq := q } := h.congr rfl rfl rfl rfl

theorem Line.withBytecnt (h : Line s t) (c : BitVec 4) : Line s { t with bytecnt := c } := h.congr rfl rfl rfl rfl

theorem Line.withPollcnt (h : Line s t) (n : Nat) : Line s { t with pollcnt := n } := h.congr rfl rfl rfl rfl

theorem line_txSlots (n : Nat) (s : State) : Line s (txSlots n s) := by
  induction n generalizing s with
  | zero => exact .refl s
  | succ n ih =>
    have hslot : Line s (txSlot s) := Line.congr ⟨_, onLine_writeBit s.shrBit s⟩ rfl rfl rfl rfl
    exact hslot.trans (ih (txSlot s))

theorem line_txByte (b : Byte) (s : State) : Line s (txByte b s) := by
  have hstart : Line s { s with shr := b, bitcnt := 0 } := (Line.refl s).congr rfl rfl rfl rfl
  rw [txByte]
  exact hstart.trans (line_txSlots 8 _)

theorem line_rxSlots (n : Nat) (s : State) : Line s (rxSlots n s) := by
  induction n generalizing s with
  | zero => exact .refl s
  | succ n ih =>
    have hslot : Line s (rxSlot s) := Line.congr ⟨_, onLine_readBit s⟩ rfl rfl rfl rfl
    exact hslot.trans (ih (rxSlot s))

theorem line_rxByte (s : State) : Line s (rxByte s) := by
  have hstart : Line s { s with shr := 0, bitcnt := 0 } := (Line.refl s).congr rfl rfl rfl rfl
  rw [rxByte]
  exact hstart.trans (line_rxSlots 8 _)

theorem line_receiveBytes (n : Nat) (s : State) : Line s (receiveBytes n s) := by
  induction n generalizing s with
  | zero => exact .refl s
  | succ n ih =>
    have hstored : Line s ((rxByte s).storeSp (rxByte s).shr) := (line_rxByte s).congr rfl rfl rfl rfl
    rw [receiveBytes]
    exact hstored.trans (ih _)

/-! ## The bodies of the sequencer's states -/

theorem line_resetBody (next : SeqState) (s : State) : Line s (resetBody next s) := by
  have h : Line s (resetDetect s).2 := ⟨_, onLine_resetDetect s⟩
  rw [resetDetect_eq] at h
  rw [resetBody_eq]
  exact h.congr rfl rfl rfl rfl

theorem line_commandBody (b : Byte) (next : SeqState) (s : State) : Line s (commandBody b next s) := by
  rw [commandBody]
  exact (line_txByte b s).withSeq next

theorem line_afterPoll (r : Bit) (h : s.dqOe = false) : Line s (afterPoll r s) := by
  simp only [afterPoll]
  split_ifs
  · exact (Line.refl s).congr rfl rfl rfl rfl
  · exact (Line.refl s).congr rfl h.symm rfl rfl
  · have hcounted : Line s (pollCounted s) := (Line.refl s).congr rfl rfl rfl rfl
    exact hcounted.trans ⟨_, onLine_delay s.par.tPoll h⟩

theorem line_pollBody (s : State) : Line s (pollBody s) := by
  have hread : Line s (readBit s).2 := ⟨_, onLine_readBit s⟩
  rw [pollBody]
  exact hread.trans (line_afterPoll _ (by rw [readBit_eq]))

theorem line_readScratchpadBody (s : State) : Line s (readScratchpadBody s) := by
  have hsent := (line_txByte Config.cmdReadSp s).withBytecnt 0
  rw [readScratchpadBody]
  exact (hsent.trans (line_receiveBytes 9 _)).withSeq .validate

theorem line_validateBody (s : State) : Line s (validateBody s) := by
  rw [validateBody_eq]
  exact (Line.refl s).congr rfl rfl rfl rfl

theorem line_acquire (s : State) : Line s (acquire s) := by
  unfold acquire
  split_ifs
  · exact (Line.refl s).congr rfl rfl rfl rfl
  · exact .refl s

/-! ## Operations -/

/-- The answer of an operation that does `u` on the line and returns a value (R118). -/
theorem Line.of_finish {r : Result} (h : Line s u) (he : finish r u = .next t) : Line s t := by
  cases he
  exact h.congr rfl rfl rfl rfl

theorem Line.of_next (h : Line s u) (he : (.next u : Answer) = .next t) : Line s t := by
  cases he
  exact h

/-- Every operation above the micro-operations but `RESET` keeps to the line's discipline (R139). -/
theorem line_exec {i : Instr} (hmicro : i.format ≠ .micro) (hreset : i ≠ .reset) (h : exec i s = .next t) : Line s t := by
  cases i with
  | driveLow | release | delay n | sample => exact absurd rfl hmicro
  | reset => exact absurd rfl hreset
  | resetDetect => exact Line.of_finish ⟨_, onLine_resetDetect s⟩ h
  | w1 | w0 => exact Line.of_finish ⟨_, onLine_writeBit _ s⟩ h
  | readBit => exact Line.of_finish ⟨_, onLine_readBit s⟩ h
  | txByte b => exact (line_txByte b s).of_finish h
  | rxByte => exact (line_rxByte s).of_finish h
  | selectAll | convert | readSp => exact (line_txByte _ s).of_finish h
  | crcStep c b | decode r | latest => exact (Line.refl s).of_finish h
  | computeCrc m =>
    cases h
    exact (Line.refl s).congr rfl rfl rfl rfl
  | acquire => exact (line_acquire s).of_finish h
  | seqReset1 | seqReset2 => exact (line_resetBody _ s).of_next h
  | seqSelectAll1 | seqSelectAll2 => exact (line_commandBody _ _ s).of_next h
  | seqStartConversion => exact ((line_commandBody _ _ s).withPollcnt 0).of_next h
  | seqConversionWait => exact (line_pollBody s).of_next h
  | seqReadScratchpad => exact (line_readScratchpadBody s).of_next h
  | seqValidate => exact (line_validateBody s).of_next h
  | seqIdle | seqCommitted | seqDiscarded | seqAborted | seqTimedOut => exact (Line.refl s).of_next h

/-- Settles O21: an operation's events on the line are released pulse by pulse. -/
theorem operationsReleaseTheLine : Obligations.OperationsReleaseTheLine := by
  intro i s t hmicro hreset h
  obtain ⟨es, hline⟩ := line_exec hmicro hreset h
  exact ⟨es, hline.trace_eq, hline.lows, hline.untouched, hline.released⟩

/-! ## The micro-operations -/

theorem exec_delay (n : Nat) (s : State) : exec (.delay n) s = .next { s with
    trace := s.trace ++ [if s.dqOe then .low n else .rel n], res := .none } := rfl

/-- `SAMPLE` of the released line (R65, R133). -/
theorem exec_sample_released (h : s.dqOe = false) : exec .sample s = .next { s with
    trace := s.trace ++ [.smp s.answer], dqIn := s.dqIn.tail, res := .bit s.answer } := by
  rw [exec, execSample, if_neg (by simp [h]), sample_released s h]
  rfl

/-- `SAMPLE` with the line driven has no meaning (R133, U4; log 16). -/
theorem exec_sample_driven (h : s.dqOe = true) : exec .sample s = .refused .sampleWhileDriving := by
  rw [exec, execSample, if_pos h]

/-- Settles O16: the two line modes, and the two ways a sample is answered (R66; log 7). -/
theorem sampleReadsTheReleasedLine : Obligations.SampleReadsTheReleasedLine :=
  fun _ => ⟨exec_sample_released, exec_sample_driven, answer_of_no_plan, fun _ _ h => answer_cons _ h⟩

/-- What a micro-operation does: the line mode, or one event. -/
theorem exec_micro {i : Instr} (hmicro : i.format = .micro) (h : exec i s = .next t) :
    (∃ oe, t = { s with dqOe := oe, res := .none } ∧ (oe = true → i = .driveLow)) ∨
    (∃ n, t = { s with trace := s.trace ++ [if s.dqOe then .low n else .rel n], res := .none }) ∨
    (s.dqOe = false ∧
      t = { s with trace := s.trace ++ [.smp s.answer], dqIn := s.dqIn.tail, res := .bit s.answer }) := by
  cases i with
  | driveLow =>
    cases h
    exact .inl ⟨true, rfl, fun _ => rfl⟩
  | release =>
    cases h
    exact .inl ⟨false, rfl, fun h => by cases h⟩
  | delay n =>
    cases h
    exact .inr (.inl ⟨n, rfl⟩)
  | sample =>
    cases hoe : s.dqOe with
    | true =>
      rw [exec_sample_driven hoe] at h
      cases h
    | false =>
      rw [exec_sample_released hoe] at h
      cases h
      exact .inr (.inr ⟨rfl, by simp [hoe]⟩)
  | _ => cases hmicro

/-- Settles O53: above the micro-operations by their events on the line, and of the micro-operations only `SAMPLE` samples. -/
theorem everySampleReadsTheOracle : Obligations.EverySampleReadsTheOracle := by
  intro i s t hplan hreset h
  by_cases hmicro : i.format = .micro
  · rcases exec_micro hmicro h with ⟨oe, rfl, -⟩ | ⟨n, rfl⟩ | ⟨-, rfl⟩
    · exact ⟨[], by simp, rfl⟩
    · exact ⟨_, rfl, by cases s.dqOe <;> rfl⟩
    · exact ⟨_, rfl, by simp [follows, answer_of_no_plan hplan]⟩
  · obtain ⟨es, hline⟩ := line_exec hmicro hreset h
    exact ⟨es, hline.trace_eq, hline.oracle hplan⟩

/-- The line mode after an operation: as before, or released, but for `DRIVE_LOW`. -/
theorem exec_dqOe {i : Instr} (hdrive : i ≠ .driveLow) (h : exec i s = .next t) : t.dqOe = s.dqOe ∨ t.dqOe = false := by
  by_cases hmicro : i.format = .micro
  · rcases exec_micro hmicro h with ⟨oe, rfl, hoe⟩ | ⟨n, rfl⟩ | ⟨-, rfl⟩
    · cases oe with
      | true => exact absurd (hoe rfl) hdrive
      | false => exact .inr rfl
    · exact .inl rfl
    · exact .inl rfl
  · by_cases hreset : i = .reset
    · rw [hreset, exec_reset] at h
      cases h
      exact .inr rfl
    · obtain ⟨es, hline⟩ := line_exec hmicro hreset h
      by_cases hes : es = []
      · exact .inl (hline.untouched hes)
      · exact .inr (hline.released hes)

end Sys2Proof.Machine
end

section
/-! What an operation called by itself and a row of the sequencer write, and the invariant over every step. -/

namespace Sys2Proof.Machine

variable {s t u : State} {i : Instr}

/-! ## Operations called by themselves -/

/-- A called operation writes none of `SEQ`, `PH`, `SP`, the Reading State, the polls and the timer; it leaves whole bytes (R26, R118). -/
structure CallEffect (s t : State) : Prop where
  frame : t = { s with
    dqOe := t.dqOe, shr := t.shr, bitcnt := t.bitcnt, crc := t.crc, pres := t.pres, rxbit := t.rxbit, trace := t.trace
    dqIn := t.dqIn, res := t.res }
  bitcnt : t.bitcnt = s.bitcnt ∨ t.bitcnt = 8

theorem exec_called (hseq : i.format ≠ .seq4) (hhost : i.format ≠ .host1) (h : exec i s = .next t) : CallEffect s t := by
  cases i with
  | driveLow | release | delay n | sample =>
    rcases exec_micro rfl h with ⟨oe, rfl, -⟩ | ⟨n, rfl⟩ | ⟨-, rfl⟩ <;> exact ⟨rfl, .inl rfl⟩
  | resetDetect =>
    rw [exec_resetDetect, resetDetect_eq] at h
    cases h
    exact ⟨rfl, .inl rfl⟩
  | w1 =>
    rw [exec_w1, writeBit_eq] at h
    cases h
    exact ⟨rfl, .inl rfl⟩
  | w0 =>
    rw [exec_w0, writeBit_eq] at h
    cases h
    exact ⟨rfl, .inl rfl⟩
  | readBit =>
    rw [exec_readBit, readBit_eq] at h
    cases h
    exact ⟨rfl, .inl rfl⟩
  | txByte b =>
    rw [exec_txByte_eq] at h
    cases h
    exact ⟨rfl, .inr rfl⟩
  | rxByte =>
    obtain ⟨b, -, hexec⟩ := exec_rxByte_eq s
    rw [hexec] at h
    cases h
    exact ⟨rfl, .inr rfl⟩
  | selectAll | convert | readSp =>
    cases (exec_txByte_eq s _).symm.trans h
    exact ⟨rfl, .inr rfl⟩
  | crcStep c b | computeCrc m | decode r | latest =>
    cases h
    exact ⟨rfl, .inl rfl⟩
  | acquire | reset => exact absurd rfl hhost
  | _ => exact absurd rfl hseq

theorem CallEffect.fits (h : CallEffect s t) (hs : s.Fits) (hph : s.ph = .idle) : t.Fits := by
  rw [h.frame]
  refine { hs with bitcnt_le := ?_, phase := (phaseFits_idle (by exact hph)).mpr (hs.use_of_idle hph) }
  show t.bitcnt.toNat ≤ 8
  rcases h.bitcnt with he | he
  · rw [he]
    exact hs.bitcnt_le
  · rw [he]
    decide

theorem CallEffect.ph_eq (h : CallEffect s t) : t.ph = s.ph := by rw [h.frame]

theorem CallEffect.tmr_eq (h : CallEffect s t) : t.tmr = s.tmr := by rw [h.frame]

/-- What begins a call's primitive drives the line first, and sets no more than what a byte starts with (R135 to R137, R160, R161). -/
theorem begun_eq (h : begun i s = some u) :
    u = { s with ph := u.ph, use := u.use, shr := u.shr, bitcnt := u.bitcnt } ∧ u.ph.drives = true ∧
      (u.bitcnt = s.bitcnt ∨ u.bitcnt = 0) := by
  cases i with
  | resetDetect | w1 | w0 | readBit =>
    cases h
    exact ⟨rfl, rfl, .inl rfl⟩
  | txByte b | rxByte | selectAll | convert | readSp =>
    cases h
    exact ⟨rfl, rfl, .inr rfl⟩
  | _ => cases h

theorem begun_phaseFits (h : begun i s = some u) : u.phaseFits = true := by
  cases i with
  | resetDetect | w1 | w0 | readBit | txByte b | rxByte | selectAll | convert | readSp =>
    cases h
    rfl
  | _ => cases h

theorem begun_fits (h : begun i s = some u) (hs : s.Fits) : u.Fits := by
  obtain ⟨he, -, hbit⟩ := begun_eq h
  have hphase := begun_phaseFits h
  rw [he] at hphase ⊢
  refine { hs with bitcnt_le := ?_, phase := hphase }
  show u.bitcnt.toNat ≤ 8
  rcases hbit with hb | hb
  · rw [hb]
    exact hs.bitcnt_le
  · rw [hb]
    decide

/-! ## The rows of the sequencer -/

/-- Where the row of a sequencer state leads (R200). -/
def rowEnd (q : SeqState) (s : State) : State :=
  match q with
  | .idle | .committed | .discarded | .aborted | .timedOut => s
  | .reset1 => resetBody .selectAll1 s
  | .reset2 => resetBody .selectAll2 s
  | .selectAll1 => commandBody Config.cmdSelectAll .startConversion s
  | .startConversion => { commandBody Config.cmdConvert .conversionWait s with pollcnt := 0 }
  | .conversionWait => pollBody s
  | .selectAll2 => commandBody Config.cmdSelectAll .readScratchpad s
  | .readScratchpad => readScratchpadBody s
  | .validate => validateBody s

theorem exec_row (q : SeqState) (s : State) : exec q.row s = .next (rowEnd q s) := by
  cases q <;> rfl

/-- Where the row of the state that `SEQ` holds leads. -/
def bodyEnd (s : State) : State := rowEnd s.seq s

theorem bodyEnd_resting (h : s.seq.resting = true) : bodyEnd s = s := by
  unfold bodyEnd
  cases hseq : s.seq <;> simp [hseq, SeqState.resting] at h <;> rfl

theorem bodyEnd_reset (h : s.seq = .reset1 ∨ s.seq = .reset2) : bodyEnd s = resetBody s.seq.afterPresence s := by
  rcases h with h | h <;> simp only [bodyEnd, rowEnd, h, SeqState.afterPresence]

theorem bodyEnd_selectAll (h : s.seq = .selectAll1 ∨ s.seq = .selectAll2) :
    bodyEnd s = commandBody Config.cmdSelectAll s.seq.afterByte s := by
  rcases h with h | h <;> simp only [bodyEnd, rowEnd, h, SeqState.afterByte]

theorem bodyEnd_startConversion (h : s.seq = .startConversion) :
    bodyEnd s = { commandBody Config.cmdConvert .conversionWait s with pollcnt := 0 } := by
  simp only [bodyEnd, rowEnd, h]

theorem bodyEnd_conversionWait (h : s.seq = .conversionWait) : bodyEnd s = pollBody s := by
  simp only [bodyEnd, rowEnd, h]

theorem bodyEnd_readScratchpad (h : s.seq = .readScratchpad) : bodyEnd s = readScratchpadBody s := by
  simp only [bodyEnd, rowEnd, h]

theorem bodyEnd_validate (h : s.seq = .validate) : bodyEnd s = validateBody s := by simp only [bodyEnd, rowEnd, h]

/-- The state is resting, or one of the eight that do something (R200). -/
theorem seq_cases (q : SeqState) : q.resting = true ∨ (q = .reset1 ∨ q = .reset2) ∨ (q = .selectAll1 ∨ q = .selectAll2) ∨
    q = .startConversion ∨ q = .conversionWait ∨ q = .readScratchpad ∨ q = .validate := by
  cases q <;> decide

/-- A row run from its state with no primitive in progress ends so too, with the invariant of the state it leads to. -/
theorem bodyEnd_fits (hs : s.Fits) (hph : s.ph = .idle) :
    (bodyEnd s).Fits ∧ (bodyEnd s).ph = .idle ∧ (bodyEnd s).tmr = s.tmr := by
  have huse := hs.use_of_idle hph
  have hidle : ∀ v : State, v.ph = s.ph → v.use = s.use → v.phaseFits = true := fun v hv hu =>
    (phaseFits_idle (hv.trans hph)).mpr (hu.trans huse)
  rcases seq_cases s.seq with hseq | hseq | hseq | hseq | hseq | hseq | hseq
  · rw [bodyEnd_resting hseq]
    exact ⟨hs, hph, rfl⟩
  · rw [bodyEnd_reset hseq, resetBody_eq]
    refine ⟨{ hs with phase := hidle _ rfl rfl, seq := seqFits_of_unconstrained ?_ }, hph, rfl⟩
    rcases hseq with hseq | hseq <;> cases (atPresenceSample s).answer <;> rw [hseq] <;> rfl
  · rw [bodyEnd_selectAll hseq, commandBody_eq]
    refine ⟨{ hs with
      bitcnt_le := le_refl 8, phase := hidle _ rfl rfl, seq := seqFits_of_unconstrained ?_ }, hph, rfl⟩
    rcases hseq with hseq | hseq <;> rw [hseq] <;> rfl
  · rw [bodyEnd_startConversion hseq, commandBody_eq]
    exact ⟨{ hs with
      bitcnt_le := le_refl 8
      phase := hidle _ rfl rfl
      seq := (seqFits_conversionWait rfl).mpr fun n hn => zero_lt_pollLimit hs.par_wf hn }, hph, rfl⟩
  · rw [bodyEnd_conversionWait hseq, pollBody_eq]
    refine ⟨{ hs with phase := hidle _ rfl rfl, seq := ?_ }, hph, rfl⟩
    cases hbit : (atReadSample s).answer with
    | true => exact seqFits_of_unconstrained rfl
    | false =>
      by_cases hlimit : s.par.pollLimit = some (s.pollcnt + 1)
      · simp [State.seqFits, hlimit]
      · have hcount := (seqFits_conversionWait hseq).mp hs.seq
        refine (seqFits_conversionWait (by simp [hlimit, hseq])).mpr fun n hn => ?_
        exact pollcnt_succ_lt hcount hlimit hn
  · obtain ⟨m, -, he⟩ := readScratchpadBody_eq s
    rw [bodyEnd_readScratchpad hseq, he]
    exact ⟨{ hs with
      bitcnt_le := le_refl 8, bytecnt_le := le_refl 9, phase := hidle _ rfl rfl, seq := rfl }, hph, rfl⟩
  · rw [bodyEnd_validate hseq]
    exact ⟨hs.validateBody hph, by simp [validateBody_eq, hph], by simp [validateBody_eq]⟩

/-! ## The invariant at each level -/

theorem wf_iff_symbol (hlevel : s.par.level = .symbol) : s.wf = true ↔ s.SymbolFits ∧ s.tmr = 0 := by
  rw [wf_iff, modeFits_iff]
  simp only [State.levelFits, hlevel, beq_iff_eq]
  constructor
  · rintro ⟨hfits, ⟨hline, -⟩, htmr⟩
    exact ⟨⟨hfits, hline⟩, htmr⟩
  · rintro ⟨⟨hfits, hline⟩, htmr⟩
    exact ⟨hfits, ⟨hline, fun h => absurd rfl h⟩, htmr⟩

theorem wf_iff_tick (hlevel : s.par.level = .tick) : s.wf = true ↔ s.TickFits := by
  have htimer : s.levelFits = true ↔ (s.ph.timed = false → s.ph ≠ .idle → s.tmr = 0) := by
    cases ht : s.ph.timed <;> simp [State.levelFits, hlevel, ht]
    tauto
  rw [wf_iff, modeFits_iff, htimer]
  constructor
  · rintro ⟨hfits, ⟨-, hline⟩, htmr⟩
    exact ⟨hfits, hline (by simp [hlevel]), htmr⟩
  · rintro ⟨hfits, hline, htmr⟩
    refine ⟨hfits, ⟨fun hrel => ?_, fun _ => hline⟩, htmr⟩
    have hne : s.ph ≠ .idle := fun h => by simp [h, Phase.released] at hrel
    rw [hline hne]
    cases h : s.ph <;> simp [h, Phase.released] at hrel <;> rfl

theorem wf_iff_operation (hlevel : s.par.level = .operation) : s.wf = true ↔ s.Fits ∧ s.ph = .idle ∧ s.tmr = 0 := by
  rw [wf_iff]
  simp only [State.levelFits, hlevel, Bool.and_eq_true, beq_iff_eq]
  constructor
  · rintro ⟨hfits, -, hph, htmr⟩
    exact ⟨hfits, hph, htmr⟩
  · rintro ⟨hfits, hph, htmr⟩
    exact ⟨hfits, by simp [State.modeFits, hph], hph, htmr⟩

/-- With no primitive in progress the line mode and the phase say nothing, and the timer may run at the tick level only. -/
theorem wf_of_idle (hs : s.Fits) (hph : s.ph = .idle) (htmr : s.par.level = .tick ∨ s.tmr = 0) : s.wf = true := by
  refine (wf_iff s).mpr ⟨hs, by simp [State.modeFits, hph], ?_⟩
  cases hlevel : s.par.level with
  | tick => simp [State.levelFits, hlevel, hph]
  | operation | symbol =>
    have h0 : s.tmr = 0 := htmr.resolve_left (by simp [hlevel])
    simp [State.levelFits, hlevel, hph, h0]

/-! ## What a step is -/

/-- The operation of what the host does (R108, R118). -/
def HostCommand.op : HostCommand → Instr
  | .start => .acquire
  | .rst => .reset
  | .latest => .latest

theorem decode_hostCode (a : HostCommand) : decode a.code = .ok a.op := by cases a <;> rfl

/-- What the block does by itself is a row at the operation level, and else a step of its level (logs 5, 6). -/
theorem ownFetch_cases (s : State) :
    (s.par.level = .operation ∧ s.ph = .idle ∧ ownFetch s = .sequencer s.seq.code) ∨
    (s.par.level = .operation ∧ s.ph ≠ .idle ∧ ownFetch s = .micro) ∨
    (s.par.level = .symbol ∧ ownFetch s = .micro) ∨ (s.par.level = .tick ∧ ownFetch s = .tick) := by
  cases hlevel : s.par.level with
  | operation => by_cases hph : s.ph = .idle <;> simp [ownFetch, hlevel, hph]
  | symbol => simp [ownFetch, hlevel]
  | tick => simp [ownFetch, hlevel]

/-- A bench's call that can be served, or the block's own work. -/
theorem benchFetch_cases (s : State) :
    (∃ c, benchFetch s = .called c ∧ callable c = true ∧ s.free = true) ∨ benchFetch s = ownFetch s := by
  unfold benchFetch
  split
  · next c _ _ =>
    split_ifs with h
    · rw [Bool.and_eq_true] at h
      exact .inl ⟨c, rfl, h⟩
    · exact .inr rfl
  · exact .inr rfl

/-- What the host does, a call, or the block's own work. -/
theorem fetch_cases (s : State) :
    (∃ a : HostCommand, fetch s = .asked a.code) ∨
    (∃ c, fetch s = .called c ∧ callable c = true ∧ s.free = true) ∨ fetch s = ownFetch s := by
  unfold fetch
  split
  · next a _ _ => exact .inl ⟨a, rfl⟩
  · exact .inr (benchFetch_cases s)
  · exact .inr (benchFetch_cases s)

/-- An operation that a bench may call is no row of the sequencer and no port of the host (R36, R107, R108). -/
theorem format_of_callable {c : Code} (hc : callable c = true) (hd : decode c = .ok i) :
    i.format ≠ .seq4 ∧ i.format ≠ .host1 := by
  rw [format_of_decode hd]
  cases c <;> simp [callable] at hc <;> simp [Code.format]

/-- What a step that answers `t` can be, in a state that meets the invariant. -/
inductive StepKind (s t : State) : Prop
  | asked (a : HostCommand) (hf : fetch s = .asked a.code) (h : exec a.op (taken s) = .next t)
  | called (c : Code) (i : Instr) (hf : fetch s = .called c) (hd : decode c = .ok i) (hseq : i.format ≠ .seq4)
      (hhost : i.format ≠ .host1) (hfree : s.free = true) (h : runCall i (taken s) = .next t)
  | row (hlevel : s.par.level = .operation) (hph : s.ph = .idle) (h : t = bodyEnd (taken s))
  | micro (hlevel : s.par.level = .symbol) (h : t = symbolStep (taken s))
  | tick (hlevel : s.par.level = .tick) (h : t = Machine.tick (taken s))

theorem levelFits_of_wf (hwf : s.wf = true) : s.levelFits = true := ((wf_iff s).mp hwf).2.2

theorem stepKind (hwf : s.wf = true) (h : step s = .next t) : StepKind s t := by
  unfold step at h
  rcases fetch_cases s with ⟨a, hf⟩ | ⟨c, hf, hc, hfree⟩ | hf
  · simp only [hf, runCode, decode_hostCode] at h
    exact .asked a hf h
  · simp only [hf] at h
    obtain ⟨i, hd, hrun⟩ := runCode_next h
    obtain ⟨hseq, hhost⟩ := format_of_callable hc hd
    exact .called c i hf hd hseq hhost hfree hrun
  · rcases ownFetch_cases s with ⟨hlevel, hph, ho⟩ | ⟨hlevel, hph, -⟩ | ⟨hlevel, ho⟩ | ⟨hlevel, ho⟩
    · have hrow : exec s.seq.row (taken s) = .next (bodyEnd (taken s)) := exec_row s.seq (taken s)
      simp only [hf, ho, runCode, decode_code, hrow] at h
      cases h
      exact .row hlevel hph rfl
    · have hfits := levelFits_of_wf hwf
      simp [State.levelFits, hlevel, hph] at hfits
    · simp only [hf, ho] at h
      cases h
      exact .micro hlevel rfl
    · simp only [hf, ho] at h
      cases h
      exact .tick hlevel rfl

theorem free_iff (s : State) : s.free = true ↔ s.seq.resting = true ∧ s.ph = .idle ∧ s.tmr = 0 := by
  simp [State.free, and_assoc]

/-! ## The invariant over every step -/

/-- A primitive that a resting sequencer finds in progress is a bench's call (R141; log 28). -/
theorem phaseFits_of_resting (hrest : s.seq.resting = true) (hs : s.phaseFits = true) (q : SeqState) :
    State.phaseFits { s with seq := q } = true := by
  have hseq := (resting_iff s.seq).mp hrest
  by_cases hidle : s.ph = .idle
  · exact (phaseFits_idle (s := { s with seq := q }) hidle).mpr ((phaseFits_idle hidle).mp hs)
  cases hph : s.ph with
  | idle => exact absurd hph hidle
  | rstLow | rstWait | rstSample | rstRec =>
    rw [phaseFits_reset (by simp [hph]), inReset_iff] at hs ⊢
    rcases hs with huse | ⟨-, hown⟩
    · exact .inl huse
    · rcases hown with hown | hown <;> simp [hown] at hseq
  | wrLow | wrHigh =>
    rw [phaseFits_write (by simp [hph]), writes_iff] at hs ⊢
    rcases hs with huse | huse | ⟨-, hown, -⟩
    · exact .inl huse
    · exact .inr (.inl huse)
    · cases hq : s.seq <;> simp [hq, SeqState.sends, SeqState.resting] at hown hrest
  | rdLow | rdWait | rdSample | rdRem =>
    rw [phaseFits_read (by simp [hph]), reads_iff] at hs ⊢
    rcases hs with huse | huse | ⟨-, hown | ⟨hown, -⟩⟩
    · exact .inl huse
    · exact .inr (.inl huse)
    · simp [hown] at hseq
    · simp [hown] at hseq
  | pollGap =>
    simp only [State.phaseFits, hph, Bool.and_eq_true, beq_iff_eq] at hs
    simp [hs.2] at hseq

/-- What the host does keeps the invariant. -/
theorem wf_of_asked (a : HostCommand) (hwf : s.wf = true) (h : exec a.op s = .next t) : t.wf = true ∧ (s.quiet → t.quiet) := by
  obtain ⟨hs, hmode, hlevel⟩ := (wf_iff s).mp hwf
  cases a with
  | start =>
    rw [HostCommand.op, exec_acquire] at h
    cases h
    cases hrest : s.seq.resting with
    | true =>
      rw [acquire_of_resting hrest]
      have hfits : State.Fits { s with seq := .reset1, res := .none } :=
        { hs with phase := phaseFits_of_resting hrest hs.phase .reset1, seq := rfl }
      exact ⟨(wf_iff _).mpr ⟨hfits, hmode, hlevel⟩, id⟩
    | false =>
      rw [acquire_of_busy (by rw [State.busy, hrest]; rfl)]
      exact ⟨hwf, id⟩
  | rst =>
    rw [HostCommand.op, exec_reset] at h
    cases h
    have hfits : (resetState s).Fits := ⟨Nat.zero_le 8, Nat.zero_le 9, rfl, hs.par_wf, rfl, rfl⟩
    exact ⟨wf_of_idle hfits rfl (.inr rfl), fun _ _ => rfl⟩
  | latest =>
    cases h
    exact ⟨hwf, id⟩

/-- What the first step of a call can be at each level (R9, R132, R143). -/
theorem runCall_cases (h : runCall i s = .next t) :
    ((s.par.level = .operation ∨ (s.par.level = .symbol ∧ begun i s = none)) ∧ exec i s = .next t) ∨
    (s.par.level = .tick ∧ ∃ u, exec i s = .next u ∧ t = { u with tmr := delayTime i }) ∨
    ∃ u, begun i s = some u ∧
      ((s.par.level = .symbol ∧ t = microStep u) ∨ (s.par.level = .tick ∧ t = enterPhase u)) := by
  unfold runCall at h
  split at h
  · next hlevel => exact .inl ⟨.inl hlevel, h⟩
  · next u hlevel hb =>
    cases h
    exact .inr (.inr ⟨u, hb, .inl ⟨hlevel, rfl⟩⟩)
  · next hlevel hb => exact .inl ⟨.inr ⟨hlevel, hb⟩, h⟩
  · next u hlevel hb =>
    cases h
    exact .inr (.inr ⟨u, hb, .inr ⟨hlevel, rfl⟩⟩)
  · next hlevel _ => exact .inr (.inl ⟨hlevel, loadTimer_next h⟩)

/-- A called operation run as a whole leaves no primitive in progress, and the line as released as it was. -/
theorem quiet_of_exec (hph : s.ph = .idle) (hdrive : i ≠ .driveLow) (h : exec i s = .next u) (hquiet : s.quiet) :
    u.quiet := by
  intro _
  rcases exec_dqOe hdrive h with he | he
  · rw [he, hquiet hph]
  · exact he

theorem begun_symbolFits (h : begun i s = some u) (hs : s.Fits) : u.SymbolFits := by
  obtain ⟨-, hdrives, -⟩ := begun_eq h
  exact ⟨begun_fits h hs, fun hrel => by simp [released_of_drives hdrives] at hrel⟩

theorem begun_ph_ne_idle (h : begun i s = some u) : u.ph ≠ .idle := by
  obtain ⟨-, hdrives, -⟩ := begun_eq h
  intro hph
  rw [hph] at hdrives
  cases hdrives

theorem begun_tmr (h : begun i s = some u) : u.tmr = s.tmr := by rw [(begun_eq h).1]

/-- A call's first step keeps the invariant: all of it, or its first micro-operation, or its first phase entered (R9). -/
theorem wf_of_called (hwf : s.wf = true) (hfree : s.free = true) (hseq : i.format ≠ .seq4) (hhost : i.format ≠ .host1)
    (h : runCall i s = .next t) : t.wf = true ∧ (s.quiet → i ≠ .driveLow → t.quiet) := by
  obtain ⟨hs, -, -⟩ := (wf_iff s).mp hwf
  obtain ⟨-, hph, htmr⟩ := (free_iff s).mp hfree
  have hpar := runCall_par h
  rcases runCall_cases h with ⟨-, he⟩ | ⟨hlevel, u, he, rfl⟩ | ⟨u, hb, ⟨hlevel, rfl⟩ | ⟨hlevel, rfl⟩⟩
  · have heffect := exec_called hseq hhost he
    exact ⟨wf_of_idle (heffect.fits hs hph) (heffect.ph_eq.trans hph) (.inr (heffect.tmr_eq.trans htmr)),
      fun hquiet hdrive => quiet_of_exec hph hdrive he hquiet⟩
  · have heffect := exec_called hseq hhost he
    have hfits := heffect.fits hs hph
    exact ⟨wf_of_idle { hfits with } (heffect.ph_eq.trans hph) (.inl (by rw [hpar, hlevel])),
      fun hquiet hdrive => quiet_of_exec (u := u) hph hdrive he hquiet⟩
  · obtain ⟨hfits, hquiet⟩ := (begun_symbolFits hb hs).microStep (begun_ph_ne_idle hb)
    exact ⟨(wf_iff_symbol (by rw [hpar, hlevel])).mpr ⟨hfits, by simp [begun_tmr hb, htmr]⟩, fun _ _ => hquiet⟩
  · have hbegun := begun_symbolFits hb hs
    have hfits := hbegun.fits.enterPhase hbegun.line (by rw [begun_tmr hb, htmr])
    refine ⟨(wf_iff_tick (by rw [hpar, hlevel])).mpr hfits, fun _ _ hidle => ?_⟩
    rw [enterPhase_ph] at hidle
    exact absurd hidle (begun_ph_ne_idle hb)

/-- What a step takes from the two lists is no part of the invariant. -/
theorem taken_wf (s : State) : (taken s).wf = s.wf := rfl

theorem taken_quiet (s : State) : (taken s).quiet = s.quiet := rfl

/-- Settles O49: what a step can be, each way keeping the invariant by a lemma of its own. -/
theorem everyStepKeepsTheInvariant : Obligations.EveryStepKeepsTheInvariant := by
  intro s t hwf h
  have hpar : t.par = s.par := step_par h
  have kind := stepKind hwf h
  rw [← taken_wf] at hwf
  rw [← taken_quiet]
  cases kind with
  | asked a _ hrun =>
    obtain ⟨ht, hquiet⟩ := wf_of_asked a hwf hrun
    exact ⟨ht, fun hq _ => hquiet hq⟩
  | called c i hf hd hseq hhost hfree hrun =>
    obtain ⟨ht, hquiet⟩ := wf_of_called hwf hfree hseq hhost hrun
    exact ⟨ht, fun hq hdrive => hquiet hq fun hi => hdrive c hf (hi ▸ hd)⟩
  | row hlevel hph ht =>
    obtain ⟨hs, -, htmr⟩ := (wf_iff_operation (s := taken s) hlevel).mp hwf
    obtain ⟨hfits, hidle, htmr'⟩ := bodyEnd_fits hs hph
    have hrow : exec s.seq.row (taken s) = .next (bodyEnd (taken s)) := exec_row s.seq (taken s)
    have hdrive : s.seq.row ≠ .driveLow := by cases s.seq <;> simp [SeqState.row]
    rw [ht]
    exact ⟨wf_of_idle hfits hidle (.inr (htmr'.trans htmr)), fun hq _ => quiet_of_exec (s := taken s) hph hdrive hrow hq⟩
  | micro hlevel ht =>
    obtain ⟨hs, htmr⟩ := (wf_iff_symbol (s := taken s) hlevel).mp hwf
    obtain ⟨hfits, hquiet⟩ := hs.symbolStep
    rw [← hpar] at hlevel
    subst ht
    exact ⟨(wf_iff_symbol hlevel).mpr ⟨hfits, by rw [symbolStep_tmr, htmr]⟩, fun hq _ => hquiet hq⟩
  | tick hlevel ht =>
    obtain ⟨hfits, hquiet⟩ := ((wf_iff_tick (s := taken s) hlevel).mp hwf).tick
    rw [← hpar] at hlevel
    subst ht
    exact ⟨(wf_iff_tick hlevel).mpr hfits, fun hq _ => hquiet hq⟩

end Sys2Proof.Machine
end

section
/-! The transitions of the sequencer (R215), and the one thing a step of the symbol level does on the line (R9). -/

namespace Sys2Proof.Machine

variable {s t u : State} {i : Instr}

/-! ## The rows of the table -/

theorem SameReading.refl (s : State) : SameReading s s := ⟨rfl, rfl⟩

theorem Transition.of_same (hseq : t.seq = s.seq) (hread : SameReading s t) : Transition s t := .inl ⟨hseq, hread⟩

theorem Transition.of_start (hrest : s.seq.resting = true) (hfetch : fetch s = .asked (.host1 .start)) (ht : t.seq = .reset1)
    (hread : SameReading s t) : Transition s t := .inr (.inl ⟨hrest, hfetch, ht, hread⟩)

/-- The two reset states, by the presence sample. -/
theorem Transition.of_presence (hseq : s.seq = .reset1 ∨ s.seq = .reset2)
    (ht : t.seq = if s.presenceRead then .aborted else s.seq.afterPresence) (hread : SameReading s t) : Transition s t := by
  rcases hseq with hseq | hseq <;> rw [hseq] at ht <;> simp [Transition, hseq, hread, ht, SeqState.afterPresence]

/-- The states that send one byte. -/
theorem Transition.of_byte (hseq : (s.seq = .selectAll1 ∨ s.seq = .selectAll2) ∨ s.seq = .startConversion)
    (ht : t.seq = s.seq.afterByte) (hread : SameReading s t) : Transition s t := by
  rcases hseq with (hseq | hseq) | hseq <;> rw [hseq] at ht <;> simp [Transition, hseq, hread, ht, SeqState.afterByte]

/-- A poll that read 1. -/
theorem Transition.of_poll_one (hseq : s.seq = .conversionWait) (hpoll : s.pollRead = true) (ht : t.seq = .reset2)
    (hread : SameReading s t) : Transition s t := by
  simp [Transition, hseq, hpoll, ht, hread]

/-- The last poll that the limit allows, reading 0. -/
theorem Transition.of_poll_last (hseq : s.seq = .conversionWait) (hpoll : s.pollRead = false)
    (hlimit : s.par.pollLimit = some (s.pollcnt + 1)) (ht : t.seq = .timedOut) (hread : SameReading s t) : Transition s t := by
  simp [Transition, hseq, hpoll, hlimit, ht, hread]

theorem Transition.of_received (hseq : s.seq = .readScratchpad) (ht : t.seq = .validate) (hread : SameReading s t) :
    Transition s t := by
  simp [Transition, hseq, ht, hread]

/-- `Validate`, by the checksum (R210). -/
theorem transition_validateBody (hseq : s.seq = .validate) : Transition s (validateBody s) := by
  by_cases hcrc : computeCrc s.spMessage = s.spChecksum
  · rw [validateBody_of_match hcrc]
    simp [Transition, hseq, hcrc]
  · rw [validateBody_of_mismatch hcrc]
    simp [Transition, hseq, hcrc]

/-- A transition is a matter of `SEQ` and the Reading State. -/
theorem Transition.congr (h : Transition s t) (hseq : u.seq = t.seq) (hread : SameReading t u) : Transition s u := by
  obtain ⟨hvalid, hraw⟩ := hread
  simpa only [Transition, SameReading, hseq, hvalid, hraw] using h

/-! ## The end of a phase -/

/-- What a step takes from the lists, and the event of the phase that ends, are no part of a transition's condition, but for the trace at
a sample. -/
def aside (s : State) (host : List (Option HostCommand)) (bench : List Code) (trace : List Event) : State :=
  { s with host := host, bench := bench, trace := trace }

variable {host : List (Option HostCommand)} {bench : List Code} {trace : List Event}

theorem transition_validateBody_aside (hseq : s.seq = .validate) : Transition s (validateBody (aside s host bench trace)) := by
  refine (transition_validateBody hseq).congr ?_ ?_ <;> rw [validateBody_eq, validateBody_eq]
  · rfl
  · exact ⟨rfl, rfl⟩

theorem sample_aside (hoe : s.dqOe = false) : (sample (aside s host bench s.trace)).1 = s.answer := by
  rw [sample_released _ (by exact hoe)]
  rfl

/-- The end of a phase is a row of the table under its condition. -/
theorem PhaseEnd.transition (h : PhaseEnd (aside s host bench trace) u) (hs : s.Fits)
    (hsample : s.ph = .rstSample → s.dqOe = false ∧ trace = s.trace) : Transition s u := by
  cases h with
  | validates hph hseq =>
    exact transition_validateBody_aside hseq
  | absent hph hhigh huse =>
    obtain ⟨-, hseq⟩ := hs.reset_of_not_called (.inl hph) huse
    obtain ⟨hoe, rfl⟩ := hsample hph
    rw [sample_aside hoe] at hhigh
    have hpres : s.presenceRead = true := by
      have hph' : s.ph = .rstSample := hph
      rw [State.presenceRead, hph', hhigh]
    exact .of_presence hseq (by rw [hpres]; rfl) ⟨rfl, rfl⟩
  | present hph huse =>
    obtain ⟨-, hseq⟩ := hs.reset_of_not_called (.inr hph) huse
    have hpres : s.presenceRead = false := by
      have hph' : s.ph = .rstRec := hph
      rw [State.presenceRead, hph']
    exact .of_presence hseq (by rw [hpres]; rfl) ⟨rfl, rfl⟩
  | sentByte hph huse huse' hcnt hseq =>
    obtain ⟨hsends, -⟩ := hs.writes_of_wrHigh hph huse
    obtain ⟨-, hsends⟩ := hsends.resolve_left huse'
    have hseq' : s.seq ≠ .readScratchpad := hseq
    refine .of_byte ?_ rfl ⟨rfl, rfl⟩
    cases hq : s.seq <;> simp [hq, SeqState.sends] at hsends hseq' ⊢
  | receivedLast hph huse huse' hseq hcnt hbytes =>
    obtain ⟨hreads, -⟩ := hs.reads_of_rdRem hph huse (.inr hseq)
    obtain ⟨-, hsp, -⟩ := hreads.resolve_left huse'
    exact .of_received hsp rfl ⟨rfl, rfl⟩
  | polledOne hph huse huse' hseq hbit =>
    have hpoll : s.pollRead = true := by
      have hph' : s.ph = .rdRem := hph
      rw [State.pollRead, hph']
      exact hbit
    exact .of_poll_one hseq hpoll rfl ⟨rfl, rfl⟩
  | polledLast hph huse huse' hseq hbit hlimit =>
    have hpoll : s.pollRead = false := by
      have hph' : s.ph = .rdRem := hph
      rw [State.pollRead, hph']
      exact hbit
    exact .of_poll_last hseq hpoll hlimit rfl ⟨rfl, rfl⟩
  | _ => exact .of_same rfl ⟨rfl, rfl⟩

/-! ## The rows of the sequencer -/

theorem bodyEnd_transition (hph : s.ph = .idle) : Transition s (bodyEnd (taken s)) := by
  have hpresence : s.presenceRead = (atPresenceSample (taken s)).answer := by
    rw [State.presenceRead, hph]
    rfl
  have hpoll : s.pollRead = (atReadSample (taken s)).answer := by
    rw [State.pollRead, hph]
    rfl
  rcases seq_cases s.seq with hseq | hseq | hseq | hseq | hseq | hseq | hseq
  · rw [bodyEnd_resting (by exact hseq)]
    exact .of_same rfl ⟨rfl, rfl⟩
  · rw [bodyEnd_reset (by exact hseq), resetBody_eq]
    exact .of_presence hseq (by rw [hpresence]; rfl) ⟨rfl, rfl⟩
  · rw [bodyEnd_selectAll (by exact hseq), commandBody_eq]
    exact .of_byte (.inl hseq) rfl ⟨rfl, rfl⟩
  · rw [bodyEnd_startConversion (by exact hseq), commandBody_eq]
    exact .of_byte (.inr hseq) (by rw [hseq]; rfl) ⟨rfl, rfl⟩
  · rw [bodyEnd_conversionWait (by exact hseq), pollBody_eq]
    cases hbit : (atReadSample (taken s)).answer with
    | true => exact .of_poll_one hseq (hpoll.trans hbit) rfl ⟨rfl, rfl⟩
    | false =>
      by_cases hlimit : s.par.pollLimit = some (s.pollcnt + 1)
      · exact .of_poll_last hseq (hpoll.trans hbit) hlimit (by simp [hlimit]) ⟨rfl, rfl⟩
      · exact .of_same (by simp [hlimit]) ⟨rfl, rfl⟩
  · obtain ⟨m, -, he⟩ := readScratchpadBody_eq (taken s)
    rw [bodyEnd_readScratchpad (by exact hseq), he]
    exact .of_received hseq rfl ⟨rfl, rfl⟩
  · rw [bodyEnd_validate (by exact hseq)]
    exact transition_validateBody_aside hseq

/-! ## The steps of the two levels of R9 -/

/-- The first micro-operation of a low phase: `DRIVE_LOW`, or the phase's `DELAY` where the line is driven already. -/
theorem microStep_of_drives (hd : s.ph.drives = true) :
    microStep s = driveLow s ∨
      (s.dqOe = true ∧ ∃ p, p ≠ .idle ∧ microStep s = goTo p (delay s.phaseTime s)) := by
  have hph : s.ph ≠ .idle := fun h => by simp [h, Phase.drives] at hd
  rcases microStep_cases hph with ⟨-, -, he⟩ | ⟨-, hm, he⟩ | ⟨hsample, -⟩
  · exact .inl (by rw [he, hd]; rfl)
  · obtain ⟨p, hp, -, -, hidle⟩ := phaseEnded_of_drives (s := delay s.phaseTime s) hd
    exact .inr ⟨hm.trans hd, p, hidle, he.trans hp⟩
  · rcases hsample with h | h <;> simp [h, Phase.drives] at hd

theorem microStep_same_of_drives (hd : s.ph.drives = true) : (microStep s).seq = s.seq ∧ SameReading s (microStep s) := by
  rcases microStep_of_drives hd with h | ⟨-, p, -, h⟩ <;> rw [h] <;> exact ⟨rfl, rfl, rfl⟩

theorem enterPhase_same (s : State) : (enterPhase s).seq = s.seq ∧ SameReading s (enterPhase s) :=
  ⟨enterPhase_seq s, enterPhase_rsValid s, enterPhase_rsRaw s⟩

theorem phaseEnded_transition (hs : s.Fits) (hoe : s.ph = .rstSample → s.dqOe = false) :
    Transition s (phaseEnded (taken s)) :=
  (phaseEnd_phaseEnded (taken s)).transition hs fun h => ⟨hoe h, rfl⟩

theorem symbolStep_transition (hs : s.SymbolFits) : Transition s (symbolStep (taken s)) := by
  have hoe : s.ph = .rstSample → s.dqOe = false := fun h => hs.line (by rw [h]; rfl)
  by_cases hph : s.ph = .idle
  · have hbegin : Transition s (beginBody (taken s)) := by
      rw [← phaseEnded_idle (by exact hph)]
      exact phaseEnded_transition hs.fits hoe
    rw [symbolStep_idle (by exact hph)]
    split_ifs with hidle
    · exact hbegin
    · obtain ⟨hseq, hread⟩ := microStep_same_of_drives (beginBody_drives (by exact hph) hidle)
      exact hbegin.congr hseq hread
  · rw [symbolStep_inside (taken s) hph]
    rcases microStep_cases (s := taken s) hph with ⟨-, -, he⟩ | ⟨ht, -, he⟩ | ⟨-, he⟩
    · rw [he]
      exact .of_same rfl ⟨rfl, rfl⟩
    · rw [he]
      refine (phaseEnd_phaseEnded (aside s s.host.tail (benchRest s) _)).transition hs.fits fun hsample => ?_
      rw [taken_ph, hsample] at ht
      cases ht
    · rw [he]
      exact phaseEnded_transition hs.fits hoe

theorem tick_transition (hs : s.TickFits) : Transition s (tick (taken s)) := by
  by_cases htmr : s.tmr = 0
  · have hend : Transition s (phaseEnded (taken s)) := phaseEnded_transition hs.fits fun h => by
      rw [hs.line (by simp [h]), h]
      rfl
    rw [tick_of_zero (by exact htmr)]
    obtain ⟨hseq, hread⟩ := enterPhase_same (phaseEnded (taken s))
    exact hend.congr hseq hread
  · rw [tick_of_ne_zero (by exact htmr)]
    exact .of_same rfl ⟨rfl, rfl⟩

/-! ## Calls and the host -/

theorem CallEffect.same (h : CallEffect s t) : t.seq = s.seq ∧ SameReading s t := by
  rw [h.frame]
  exact ⟨rfl, rfl, rfl⟩

theorem begun_same (h : begun i s = some u) : u.seq = s.seq ∧ SameReading s u := by
  rw [(begun_eq h).1]
  exact ⟨rfl, rfl, rfl⟩

/-- No call touches `SEQ` or the Reading State (R31, R216). -/
theorem runCall_same (hseq : i.format ≠ .seq4) (hhost : i.format ≠ .host1) (h : runCall i s = .next t) :
    t.seq = s.seq ∧ SameReading s t := by
  rcases runCall_cases h with ⟨-, he⟩ | ⟨-, u, he, rfl⟩ | ⟨u, hb, ⟨-, rfl⟩ | ⟨-, rfl⟩⟩
  · exact (exec_called hseq hhost he).same
  · exact (exec_called hseq hhost he).same
  · obtain ⟨hu, hvalid, hraw⟩ := begun_same hb
    obtain ⟨hm, hvalid', hraw'⟩ := microStep_same_of_drives (begun_eq hb).2.1
    exact ⟨hm.trans hu, hvalid'.trans hvalid, hraw'.trans hraw⟩
  · obtain ⟨hu, hvalid, hraw⟩ := begun_same hb
    obtain ⟨hm, hvalid', hraw'⟩ := enterPhase_same u
    exact ⟨hm.trans hu, hvalid'.trans hvalid, hraw'.trans hraw⟩

/-- What the host does but for `rst`: `start` from a resting state, or nothing to `SEQ` and the Reading State. -/
theorem asked_transition (a : HostCommand) (hf : fetch s = .asked a.code) (ha : a ≠ .rst)
    (h : exec a.op (taken s) = .next t) : Transition s t := by
  cases a with
  | start =>
    rw [HostCommand.op, exec_acquire] at h
    cases h
    cases hrest : s.seq.resting with
    | true =>
      rw [acquire_of_resting (by exact hrest)]
      exact .of_start hrest hf rfl ⟨rfl, rfl⟩
    | false =>
      rw [acquire_of_busy (by rw [State.busy, taken_seq, hrest]; rfl)]
      exact .of_same rfl ⟨rfl, rfl⟩
  | rst => exact absurd rfl ha
  | latest =>
    cases h
    exact .of_same rfl ⟨rfl, rfl⟩

/-- A step other than `rst` is a row of the table. -/
theorem StepKind.transition (h : StepKind s t) (hwf : s.wf = true) (hrst : fetch s ≠ .asked (.host1 .rst)) :
    Transition s t := by
  cases h with
  | asked a hf hrun => exact asked_transition a hf (fun ha => hrst (by rw [hf, ha]; rfl)) hrun
  | called c i hf hd hseq hhost hfree hrun =>
    obtain ⟨hq, hread⟩ := runCall_same hseq hhost hrun
    exact .of_same hq hread
  | row hlevel hph ht => exact ht ▸ bodyEnd_transition hph
  | micro hlevel ht => exact ht ▸ symbolStep_transition ((wf_iff_symbol hlevel).mp hwf).1
  | tick hlevel ht => exact ht ▸ tick_transition ((wf_iff_tick hlevel).mp hwf)

/-- Settles O52: what a step can be, each way a row of the table; and `rst` is the reset state. -/
theorem everyTransitionIsInTheTable : Obligations.EveryTransitionIsInTheTable := by
  intro s t hwf h
  refine ⟨(stepKind hwf h).transition hwf, fun hf => ?_⟩
  simp only [step, hf, runCode, decode, decodePort, exec_reset] at h
  cases h
  exact ⟨rfl, rfl, rfl⟩

end Sys2Proof.Machine
end

section
/-! What steps leave alone: the Reading State outside `Validate` (R31), all but one event on the line at the symbol level (R9), and the
work that the host and the bench ask for. -/

namespace Sys2Proof.Machine

variable {s t u : State} {i : Instr}

/-! ## The Reading State -/

theorem exists_row_of_format (h : i.format = .seq4) : ∃ q : SeqState, i = q.row := by
  cases i with
  | seqIdle => exact ⟨.idle, rfl⟩
  | seqReset1 => exact ⟨.reset1, rfl⟩
  | seqSelectAll1 => exact ⟨.selectAll1, rfl⟩
  | seqStartConversion => exact ⟨.startConversion, rfl⟩
  | seqConversionWait => exact ⟨.conversionWait, rfl⟩
  | seqReset2 => exact ⟨.reset2, rfl⟩
  | seqSelectAll2 => exact ⟨.selectAll2, rfl⟩
  | seqReadScratchpad => exact ⟨.readScratchpad, rfl⟩
  | seqValidate => exact ⟨.validate, rfl⟩
  | seqCommitted => exact ⟨.committed, rfl⟩
  | seqDiscarded => exact ⟨.discarded, rfl⟩
  | seqAborted => exact ⟨.aborted, rfl⟩
  | seqTimedOut => exact ⟨.timedOut, rfl⟩
  | _ => cases h

theorem rowEnd_sameReading {q : SeqState} (hq : q ≠ .validate) (s : State) : SameReading s (rowEnd q s) := by
  cases q with
  | idle | committed | discarded | aborted | timedOut => exact ⟨rfl, rfl⟩
  | reset1 | reset2 =>
    rw [rowEnd, resetBody_eq]
    exact ⟨rfl, rfl⟩
  | selectAll1 | selectAll2 | startConversion =>
    rw [rowEnd, commandBody_eq]
    exact ⟨rfl, rfl⟩
  | conversionWait =>
    rw [rowEnd, pollBody_eq]
    exact ⟨rfl, rfl⟩
  | readScratchpad =>
    obtain ⟨m, -, he⟩ := readScratchpadBody_eq s
    rw [rowEnd, he]
    exact ⟨rfl, rfl⟩
  | validate => exact absurd rfl hq

theorem acquire_sameReading (s : State) : SameReading s (acquire s) := by
  unfold acquire
  split_ifs <;> exact ⟨rfl, rfl⟩

/-- Only `Validate` and `RESET` write the Reading State (R31). -/
theorem exec_sameReading (h : exec i s = .next t) (hvalidate : i ≠ .seqValidate) (hreset : i ≠ .reset) :
    SameReading s t := by
  by_cases hseq : i.format = .seq4
  · obtain ⟨q, rfl⟩ := exists_row_of_format hseq
    rw [exec_row] at h
    cases h
    exact rowEnd_sameReading (fun hq => hvalidate (by rw [hq]; rfl)) s
  · by_cases hacquire : i = .acquire
    · rw [hacquire, exec_acquire] at h
      cases h
      exact acquire_sameReading s
    · have hhost : i.format ≠ .host1 := by
        cases i with
        | acquire => exact absurd rfl hacquire
        | reset => exact absurd rfl hreset
        | _ => simp [Instr.format]
      exact (exec_called hseq hhost h).same.2

theorem PhaseEnd.sameReading (h : PhaseEnd s u) (hv : s.seq ≠ .validate) : SameReading s u := by
  cases h with
  | validates _ hseq => exact absurd hseq hv
  | _ => exact ⟨rfl, rfl⟩

theorem phaseEnded_sameReading (hv : s.seq ≠ .validate) : SameReading s (phaseEnded s) :=
  (phaseEnd_phaseEnded s).sameReading hv

theorem SameReading.trans (h : SameReading s t) (k : SameReading t u) : SameReading s u :=
  ⟨k.1.trans h.1, k.2.trans h.2⟩

theorem symbolStep_sameReading (hv : s.seq ≠ .validate) : SameReading s (symbolStep s) := by
  by_cases hph : s.ph = .idle
  · have hbegin : SameReading s (beginBody s) := phaseEnded_idle hph ▸ phaseEnded_sameReading hv
    rw [symbolStep_idle hph]
    split_ifs with hidle
    · exact hbegin
    · exact hbegin.trans (microStep_same_of_drives (beginBody_drives hph hidle)).2
  · rw [symbolStep_inside s hph]
    rcases microStep_cases hph with ⟨-, -, he⟩ | ⟨-, -, he⟩ | ⟨-, he⟩ <;> rw [he]
    · exact ⟨rfl, rfl⟩
    · exact phaseEnded_sameReading (s := delay s.phaseTime s) hv
    · exact phaseEnded_sameReading hv

theorem tick_sameReading (hv : s.seq ≠ .validate) : SameReading s (tick s) := by
  by_cases htmr : s.tmr = 0
  · rw [tick_of_zero htmr]
    exact (phaseEnded_sameReading hv).trans (enterPhase_same _).2
  · rw [tick_of_ne_zero htmr]
    exact ⟨rfl, rfl⟩

/-- Settles O51: the operations by what each writes, and the two levels by the table of phases. -/
theorem onlyValidateWritesTheReading : Obligations.OnlyValidateWritesTheReading :=
  ⟨fun _ _ _ => exec_sameReading, fun _ hv => ⟨symbolStep_sameReading hv, tick_sameReading hv⟩⟩

/-! ## One micro-operation a step -/

/-- At most one event: none, a `DELAY`'s in the line mode there was, or a `SAMPLE`'s of the released line (R9 a). -/
def OneMicroOperation (s t : State) : Prop :=
  t.trace = s.trace ∨
  (t.dqOe = s.dqOe ∧ ∃ n, t.trace = s.trace ++ [if s.dqOe then .low n else .rel n]) ∨
  (s.dqOe = false ∧ t.dqOe = false ∧ t.trace = s.trace ++ [.smp s.answer])

/-- The end of a phase that is no sample's does nothing on the trace. -/
theorem PhaseEnd.trace_eq (h : PhaseEnd s u) (hrst : s.ph ≠ .rstSample) (hrd : s.ph ≠ .rdSample) : u.trace = s.trace := by
  cases h with
  | validates => simp [validateBody_eq]
  | samplesPresence hph | absentCalled hph | absent hph => exact absurd hph hrst
  | samplesBit hph => exact absurd hph hrd
  | _ => rfl

@[simp] theorem presenceFailed_trace (s : State) : (presenceFailed s).trace = s.trace := by
  unfold presenceFailed
  split_ifs <;> rfl

/-- The end of a sample phase is the sample. -/
theorem phaseEnded_trace_sample (hph : s.ph = .rstSample ∨ s.ph = .rdSample) :
    (phaseEnded s).trace = s.trace ++ [.smp (sample s).1] := by
  rcases hph with hph | hph
  · simp only [phaseEnded, hph]
    split_ifs
    · rw [presenceFailed_trace, sample_trace]
    · rfl
  · simp only [phaseEnded, hph]
    rfl

/-- With the phase's line mode the end of a phase leaves it (R37). -/
theorem phaseEnded_dqOe (hm : s.dqOe = s.ph.drives) : (phaseEnded s).dqOe = s.dqOe := by
  cases hd : s.ph.drives with
  | true =>
    obtain ⟨p, hp, -⟩ := phaseEnded_of_drives hd
    rw [hp]
    rfl
  | false =>
    rw [hd] at hm
    rw [hm, phaseEnded_dqOe_of_released hm]

theorem microStep_one (hs : s.SymbolFits) (hph : s.ph ≠ .idle) : OneMicroOperation s (microStep s) := by
  rcases microStep_cases hph with ⟨-, -, he⟩ | ⟨ht, hm, he⟩ | ⟨hsample, he⟩ <;> rw [he]
  · exact .inl rfl
  · have hrst : s.ph ≠ .rstSample := fun h => by simp [h, Phase.timed] at ht
    have hrd : s.ph ≠ .rdSample := fun h => by simp [h, Phase.timed] at ht
    have htrace := (phaseEnd_phaseEnded (delay s.phaseTime s)).trace_eq hrst hrd
    exact .inr (.inl ⟨phaseEnded_dqOe (s := delay s.phaseTime s) hm, s.phaseTime, htrace⟩)
  · have hoe : s.dqOe = false := hs.line (by rcases hsample with h | h <;> rw [h] <;> rfl)
    refine .inr (.inr ⟨hoe, phaseEnded_dqOe_of_released hoe, ?_⟩)
    rw [phaseEnded_trace_sample hsample, sample_released s hoe]

/-- What a body sets up is nothing on the line. -/
theorem beginBody_line (s : State) : (beginBody s).trace = s.trace ∧ (beginBody s).dqOe = s.dqOe := by
  unfold beginBody
  split <;> simp [validateBody_eq]

/-- A micro-operation that begins a low phase samples nothing. -/
theorem microStep_one_of_drives (hd : s.ph.drives = true) (htrace : s.trace = u.trace) (hoe : s.dqOe = u.dqOe) :
    OneMicroOperation u (microStep s) := by
  rcases microStep_of_drives hd with h | ⟨-, p, -, h⟩ <;> rw [h]
  · exact .inl htrace
  · refine .inr (.inl ⟨hoe, s.phaseTime, ?_⟩)
    rw [goTo_trace, delay, emit, htrace, hoe]

theorem symbolStep_one (hs : s.SymbolFits) : OneMicroOperation s (symbolStep s) := by
  by_cases hph : s.ph = .idle
  · obtain ⟨htrace, hoe⟩ := beginBody_line s
    rw [symbolStep_idle hph]
    split_ifs with hidle
    · exact .inl htrace
    · exact microStep_one_of_drives (beginBody_drives hph hidle) htrace hoe
  · rw [symbolStep_inside s hph]
    exact microStep_one hs hph

/-- The operations that have no phases and are no micro-operations do nothing on the line. -/
theorem exec_one (hseq : i.format ≠ .seq4) (hhost : i.format ≠ .host1) (hb : begun i s = none) (h : exec i s = .next t) :
    OneMicroOperation s t := by
  cases i with
  | driveLow | release | delay n | sample =>
    rcases exec_micro rfl h with ⟨oe, rfl, -⟩ | ⟨n, rfl⟩ | ⟨hoe, rfl⟩
    · exact .inl rfl
    · exact .inr (.inl ⟨rfl, n, rfl⟩)
    · exact .inr (.inr ⟨hoe, hoe, rfl⟩)
  | crcStep c b | computeCrc m | decode r | latest =>
    cases h
    exact .inl rfl
  | resetDetect | w1 | w0 | readBit | txByte b | rxByte | selectAll | convert | readSp => cases hb
  | acquire | reset => exact absurd rfl hhost
  | _ => exact absurd rfl hseq

theorem acquire_trace (s : State) : (acquire s).trace = s.trace := by
  unfold acquire
  split_ifs <;> rfl

/-- Settles O7: a step of the block or a call's first step is a micro-operation, and the host's commands but `rst` do nothing on the line. -/
theorem symbolStepIsOneMicroOperation : Obligations.SymbolStepIsOneMicroOperation := by
  intro s t hwf hlevel hrst h
  have hs : (taken s).SymbolFits := ((wf_iff_symbol (s := taken s) hlevel).mp hwf).1
  show OneMicroOperation (taken s) t
  cases stepKind hwf h with
  | asked a hf hrun =>
    cases a with
    | start =>
      rw [HostCommand.op, exec_acquire] at hrun
      cases hrun
      exact .inl (acquire_trace (taken s))
    | rst => exact absurd hf hrst
    | latest =>
      cases hrun
      exact .inl rfl
  | called c i hf hd hseq hhost hfree hrun =>
    rcases runCall_cases hrun with ⟨hop | ⟨-, hb⟩, he⟩ | ⟨htick, -⟩ | ⟨u, hb, ⟨-, rfl⟩ | ⟨htick, -⟩⟩
    · rw [taken_par, hlevel] at hop
      cases hop
    · exact exec_one hseq hhost hb he
    · rw [taken_par, hlevel] at htick
      cases htick
    · obtain ⟨he, hdrives, -⟩ := begun_eq hb
      exact microStep_one_of_drives hdrives (by rw [he]) (by rw [he])
    · rw [taken_par, hlevel] at htick
      cases htick
  | row hop =>
    rw [hlevel] at hop
    cases hop
  | micro _ ht => exact ht ▸ symbolStep_one hs
  | tick htick =>
    rw [hlevel] at htick
    cases htick

/-! ## What is asked for -/

theorem taken_asked {a : HostCommand} {rest : List (Option HostCommand)} (h : s.host = some a :: rest) :
    taken s = { s with host := rest } := by
  rw [taken, benchRest, fetch_host h, h]
  rfl

theorem step_asked {a : HostCommand} {rest : List (Option HostCommand)} (h : s.host = some a :: rest) :
    step s = exec a.op { s with host := rest } := by
  simp only [step, fetch_host h, taken_asked h, runCode, decode_hostCode]

theorem taken_called {c : Code} {rest : List Code} (hf : fetch s = .called c) (hb : s.bench = c :: rest) :
    taken s = { s with host := s.host.tail, bench := rest } := by
  rw [taken, benchRest, hf, hb]
  rfl

/-- The block's own work takes nothing from the bench's calls. -/
theorem taken_own (hf : fetch s = ownFetch s) : taken s = { s with host := s.host.tail } := by
  have hrest : benchRest s = s.bench := by
    unfold benchRest
    rcases ownFetch_cases s with ⟨-, -, ho⟩ | ⟨-, -, ho⟩ | ⟨-, ho⟩ | ⟨-, ho⟩ <;> rw [hf, ho]
  rw [taken, hrest]

/-- Settles O4: the host's command comes first, and a call is served when nothing is in progress. -/
theorem stepRunsTheOperationAskedFor : Obligations.StepRunsTheOperationAskedFor := by
  refine ⟨fun s a rest i hhost hd => ?_, fun s c rest i hidle hb hc hfree hd => ?_⟩
  · rw [decode_hostCode] at hd
    cases hd
    exact step_asked hhost
  · have hf := fetch_call hidle hb hc hfree
    have hstep : step s = runCall i { s with host := s.host.tail, bench := rest } := by
      simp only [step, hf, taken_called hf hb, runCode, hd]
    refine ⟨hstep, fun hlevel => ?_⟩
    rw [hstep]
    simp only [runCall, hlevel]

/-- Settles O8: a served call is decoded, and the decoder's reason is the refusal. -/
theorem stepRefusesWhatIsNoOperation : Obligations.StepRefusesWhatIsNoOperation := by
  intro s c rest e hidle hb hc hfree hd
  simp only [step, fetch_call hidle hb hc hfree, runCode, hd]

/-- With nothing to serve the block does its own work. -/
theorem fetch_own (hidle : HostIdle s) (h : s.bench = [] ∨ s.free = false) : fetch s = ownFetch s := by
  rcases h with hb | hfree
  · rw [fetch_bench hidle, benchFetch, hb]
  · exact fetch_busy hidle hfree

/-- Settles O6: the block's own work at each of the three levels. -/
theorem stepRunsTheSequencerState : Obligations.StepRunsTheSequencerState := by
  intro s hidle hbench
  have hf := fetch_own hidle hbench
  refine ⟨⟨s.seq.row, decode_code s.seq, fun hlevel hph => ?_⟩, fun hlevel => ?_, fun hlevel => ?_⟩
  · simp only [step, taken_own hf, hf, ownFetch, hlevel, hph, if_true, runCode, decode_code]
  · simp only [step, taken_own hf, hf, ownFetch, hlevel]
  · simp only [step, taken_own hf, hf, ownFetch, hlevel]

end Sys2Proof.Machine
end

section
/-! The returned value and the bench's calls are looked at by nothing the block does by itself (R141, R255; logs 12, 28). -/

namespace Sys2Proof.Machine

/-- The state with another returned value and other calls. -/
def relabel (g : Result → Result) (k : List Code → List Code) (s : State) : State :=
  { s with res := g s.res, bench := k s.bench }

variable (g : Result → Result) (k : List Code → List Code)

/-! ## Rows of the sequencer -/

theorem resetBody_relabel (next : SeqState) (s : State) :
    resetBody next (relabel g k s) = relabel g k (resetBody next s) := by
  rw [resetBody_eq, resetBody_eq]
  rfl

theorem commandBody_relabel (b : Byte) (next : SeqState) (s : State) :
    commandBody b next (relabel g k s) = relabel g k (commandBody b next s) := by
  rw [commandBody_eq, commandBody_eq]
  rfl

theorem pollBody_relabel (s : State) : pollBody (relabel g k s) = relabel g k (pollBody s) := by
  rw [pollBody_eq, pollBody_eq]
  rfl

theorem validateBody_relabel (s : State) : validateBody (relabel g k s) = relabel g k (validateBody s) := by
  rw [validateBody_eq, validateBody_eq]
  rfl

theorem rxSlots_relabel (n : Nat) (s : State) : rxSlots n (relabel g k s) = relabel g k (rxSlots n s) := by
  induction n generalizing s with
  | zero => rfl
  | succ n ih =>
    have hslot : rxSlot (relabel g k s) = relabel g k (rxSlot s) := by
      rw [rxSlot_eq, rxSlot_eq]
      rfl
    rw [rxSlots, rxSlots, hslot, ih]

theorem rxByte_relabel (s : State) : rxByte (relabel g k s) = relabel g k (rxByte s) :=
  rxSlots_relabel g k 8 { s with shr := 0, bitcnt := 0 }

theorem receiveBytes_relabel (n : Nat) (s : State) : receiveBytes n (relabel g k s) = relabel g k (receiveBytes n s) := by
  induction n generalizing s with
  | zero => rfl
  | succ n ih =>
    rw [receiveBytes, receiveBytes, rxByte_relabel, ← ih]
    rfl

theorem readScratchpadBody_relabel (s : State) : readScratchpadBody (relabel g k s) = relabel g k (readScratchpadBody s) := by
  have hsent : ({ txByte Config.cmdReadSp (relabel g k s) with bytecnt := 0 } : State) =
      relabel g k { txByte Config.cmdReadSp s with bytecnt := 0 } := by
    rw [txByte_eq, txByte_eq]
    rfl
  rw [readScratchpadBody, readScratchpadBody, hsent, receiveBytes_relabel]
  generalize receiveBytes 9 _ = t
  rfl

theorem rowEnd_relabel (q : SeqState) (s : State) : rowEnd q (relabel g k s) = relabel g k (rowEnd q s) := by
  cases q with
  | idle | committed | discarded | aborted | timedOut => rfl
  | reset1 | reset2 => exact resetBody_relabel g k _ s
  | selectAll1 | selectAll2 => exact commandBody_relabel g k _ _ s
  | startConversion =>
    rw [rowEnd, rowEnd, commandBody_relabel]
    rfl
  | conversionWait => exact pollBody_relabel g k s
  | readScratchpad => exact readScratchpadBody_relabel g k s
  | validate => exact validateBody_relabel g k s

/-! ## The phases -/

/-- No call is in progress, or a returned value stays what it is. -/
def Keeps (s : State) : Prop := s.use = .sequencer ∨ ∀ r, g r = r

variable {s : State}

theorem callDone_relabel (r : Result) (hr : g r = r) (s : State) :
    callDone r (relabel g k s) = relabel g k (callDone r s) := by
  show _ = { callDone r s with res := g r, bench := k s.bench }
  rw [hr]
  rfl

@[simp] theorem relabel_seq (s : State) : (relabel g k s).seq = s.seq := rfl
@[simp] theorem relabel_ph (s : State) : (relabel g k s).ph = s.ph := rfl
@[simp] theorem relabel_par (s : State) : (relabel g k s).par = s.par := rfl
@[simp] theorem relabel_use (s : State) : (relabel g k s).use = s.use := rfl

theorem beginBody_relabel (s : State) : beginBody (relabel g k s) = relabel g k (beginBody s) := by
  cases hseq : s.seq with
  | validate => simp only [beginBody, relabel_seq, hseq, validateBody_relabel]
  | idle | committed | discarded | aborted | timedOut => simp only [beginBody, relabel_seq, hseq]
  | reset1 | reset2 | selectAll1 | selectAll2 | startConversion | conversionWait | readScratchpad =>
    simp only [beginBody, relabel_seq, hseq]
    rfl

theorem byteSent_relabel (s : State) : byteSent (relabel g k s) = relabel g k (byteSent s) := by
  by_cases hseq : s.seq = .readScratchpad
  · rw [byteSent_of_readScratchpad hseq, byteSent_of_readScratchpad (by exact hseq)]
    rfl
  · rw [byteSent_of_ne hseq, byteSent_of_ne (by exact hseq)]
    rfl

theorem sentBitEnded_eq (s : State) : sentBitEnded s =
    if s.bitcnt + 1 = 8 then (if s.use = .byte then callDone .none (shiftOut s) else byteSent (shiftOut s))
    else goTo .wrLow (shiftOut s) := rfl

theorem byteReceived_eq (s : State) : byteReceived s =
    if s.bytecnt + 1 = 9 then leaveTo .validate (s.storeSp s.shr) else startRx (s.storeSp s.shr) := rfl

theorem receivedBitEnded_eq (s : State) : receivedBitEnded s =
    if s.bitcnt + 1 = 8 then (if s.use = .byte then callDone (.byte (bitIn s).shr) (bitIn s) else byteReceived (bitIn s))
    else goTo .rdLow (bitIn s) := rfl

theorem pollEnded_eq (s : State) : pollEnded s =
    if s.rxbit then leaveTo .reset2 (pollCounted s)
    else if s.par.pollLimit = some (s.pollcnt + 1) then
      { raiseFailure .conversionTimeout (pollCounted s) with ph := .idle }
    else goTo .pollGap (pollCounted s) := rfl

theorem Keeps.of_called (hs : Keeps g s) (huse : s.use ≠ .sequencer) (r : Result) : g r = r := hs.resolve_left huse r

theorem sentBitEnded_relabel (hs : Keeps g s) : sentBitEnded (relabel g k s) = relabel g k (sentBitEnded s) := by
  show (if s.bitcnt + 1 = 8 then (if s.use = .byte then _ else _) else _) = relabel g k (sentBitEnded s)
  rw [sentBitEnded_eq]
  split_ifs with hcnt hbyte
  · exact callDone_relabel g k _ (hs.of_called g (by simp [hbyte]) _) (shiftOut s)
  · exact byteSent_relabel g k (shiftOut s)
  · rfl

theorem writeSlotEnded_relabel (hs : Keeps g s) : writeSlotEnded (relabel g k s) = relabel g k (writeSlotEnded s) := by
  cases huse : s.use with
  | write v =>
    simp only [writeSlotEnded, relabel_use, huse]
    exact callDone_relabel g k _ (hs.of_called g (by simp [huse]) _) s
  | sequencer | reset | read | byte =>
    simp only [writeSlotEnded, relabel_use, huse]
    exact sentBitEnded_relabel g k hs

theorem byteReceived_relabel (s : State) : byteReceived (relabel g k s) = relabel g k (byteReceived s) := by
  show (if s.bytecnt + 1 = 9 then _ else _) = relabel g k (byteReceived s)
  rw [byteReceived_eq]
  split_ifs <;> rfl

theorem receivedBitEnded_relabel (hs : Keeps g s) :
    receivedBitEnded (relabel g k s) = relabel g k (receivedBitEnded s) := by
  show (if s.bitcnt + 1 = 8 then (if s.use = .byte then _ else _) else _) = relabel g k (receivedBitEnded s)
  rw [receivedBitEnded_eq]
  split_ifs with hcnt hbyte
  · exact callDone_relabel g k _ (hs.of_called g (by simp [hbyte]) _) (bitIn s)
  · exact byteReceived_relabel g k (bitIn s)
  · rfl

theorem pollEnded_relabel (s : State) : pollEnded (relabel g k s) = relabel g k (pollEnded s) := by
  show (if s.rxbit then _ else if s.par.pollLimit = some (s.pollcnt + 1) then _ else _) = relabel g k (pollEnded s)
  rw [pollEnded_eq]
  split_ifs <;> rfl

theorem readSlotEnded_relabel (hs : Keeps g s) : readSlotEnded (relabel g k s) = relabel g k (readSlotEnded s) := by
  cases huse : s.use with
  | read =>
    simp only [readSlotEnded, relabel_use, huse]
    exact callDone_relabel g k _ (hs.of_called g (by simp [huse]) _) s
  | byte =>
    simp only [readSlotEnded, relabel_use, huse]
    exact receivedBitEnded_relabel g k hs
  | sequencer | reset | write v =>
    by_cases hseq : s.seq = .conversionWait
    · simp only [readSlotEnded, relabel_use, relabel_seq, huse, hseq, if_true, pollEnded_relabel]
    · simp only [readSlotEnded, relabel_use, relabel_seq, huse, hseq, if_false, receivedBitEnded_relabel g k hs]

theorem presenceFailed_relabel (hs : Keeps g s) : presenceFailed (relabel g k s) = relabel g k (presenceFailed s) := by
  show (if s.use = .reset then _ else _) = relabel g k (presenceFailed s)
  unfold presenceFailed
  split_ifs with huse
  · exact callDone_relabel g k _ (hs.of_called g (by simp [huse]) _) { s with pres := false }
  · rfl

theorem presenceFound_relabel (hs : Keeps g s) : presenceFound (relabel g k s) = relabel g k (presenceFound s) := by
  show (if s.use = .reset then _ else _) = relabel g k (presenceFound s)
  unfold presenceFound
  split_ifs with huse
  · exact callDone_relabel g k _ (hs.of_called g (by simp [huse]) _) { s with pres := true }
  · rfl

theorem sample_relabel (s : State) : sample (relabel g k s) = ((sample s).1, relabel g k (sample s).2) := rfl

theorem phaseEnded_relabel (hs : Keeps g s) : phaseEnded (relabel g k s) = relabel g k (phaseEnded s) := by
  cases hph : s.ph with
  | idle => simp only [phaseEnded, relabel_ph, hph, beginBody_relabel]
  | rstSample =>
    cases hbit : (sample s).1 with
    | true =>
      simp only [phaseEnded, relabel_ph, hph, sample_relabel, hbit, if_true]
      exact presenceFailed_relabel g k (s := (sample s).2) hs
    | false =>
      simp only [phaseEnded, relabel_ph, hph, sample_relabel, hbit, if_false, Bool.false_eq_true]
      rfl
  | rstRec =>
    simp only [phaseEnded, relabel_ph, hph]
    exact presenceFound_relabel g k hs
  | wrHigh =>
    simp only [phaseEnded, relabel_ph, hph]
    exact writeSlotEnded_relabel g k hs
  | rdRem =>
    simp only [phaseEnded, relabel_ph, hph]
    exact readSlotEnded_relabel g k hs
  | rstLow | rstWait | wrLow | rdLow | rdWait | rdSample | pollGap =>
    simp only [phaseEnded, relabel_ph, hph]
    rfl

/-! ## The two levels of R9 -/

theorem microStep_relabel (hs : Keeps g s) : microStep (relabel g k s) = relabel g k (microStep s) := by
  show (if s.ph.timed then (if s.dqOe = s.ph.drives then _ else if s.ph.drives then _ else _) else _) =
    relabel g k (microStep s)
  unfold microStep
  split_ifs
  · exact phaseEnded_relabel g k (s := delay s.phaseTime s) hs
  · rfl
  · rfl
  · exact phaseEnded_relabel g k hs

/-- What a body sets up is no part of a call. -/
theorem beginBody_use (s : State) : (beginBody s).use = s.use := by
  unfold beginBody
  split <;> simp [validateBody_eq]

theorem symbolStep_relabel (hs : Keeps g s) : symbolStep (relabel g k s) = relabel g k (symbolStep s) := by
  by_cases hph : s.ph = .idle
  · have hbegun : Keeps g (beginBody s) := hs.imp_left fun huse => (beginBody_use s).trans huse
    rw [symbolStep_idle hph, symbolStep_idle (by exact hph), beginBody_relabel, microStep_relabel g k hbegun]
    exact (apply_ite (relabel g k) _ _ _).symm
  · rw [symbolStep_inside s hph, symbolStep_inside _ (by exact hph), microStep_relabel g k hs]

theorem enterPhase_relabel (s : State) : enterPhase (relabel g k s) = relabel g k (enterPhase s) := by
  cases ht : s.ph.timed with
  | true =>
    rw [enterPhase_timed s ht, enterPhase_timed _ (by exact ht)]
    rfl
  | false => rw [enterPhase_untimed s ht, enterPhase_untimed _ (by exact ht)]

theorem tick_relabel (hs : Keeps g s) : tick (relabel g k s) = relabel g k (tick s) := by
  by_cases htmr : s.tmr = 0
  · rw [tick_of_zero htmr, tick_of_zero (by exact htmr), phaseEnded_relabel g k hs, enterPhase_relabel]
  · rw [tick_of_ne_zero htmr, tick_of_ne_zero (by exact htmr)]
    rfl

/-! ## Steps -/

variable {t : State} {i : Instr}

/-- What the block does by itself in a step (R9; logs 5, 6). -/
def ownWork (s : State) : State :=
  match s.par.level with
  | .operation => if s.ph = .idle then bodyEnd s else symbolStep s
  | .symbol => symbolStep s
  | .tick => tick s

theorem ownWork_row (hlevel : s.par.level = .operation) (hph : s.ph = .idle) : ownWork s = bodyEnd s := by
  simp only [ownWork, hlevel, hph, if_true]

theorem step_own (hf : fetch s = ownFetch s) : step s = .next (ownWork { s with host := s.host.tail }) := by
  rcases ownFetch_cases s with ⟨hlevel, hph, ho⟩ | ⟨hlevel, hph, ho⟩ | ⟨hlevel, ho⟩ | ⟨hlevel, ho⟩
  · rw [ownWork_row (by exact hlevel) (by exact hph)]
    simp only [step, hf, ho, taken_own hf, runCode, decode_code, exec_row]
    rfl
  · simp only [step, hf, ho, taken_own hf, ownWork, hlevel, hph, if_false]
  · simp only [step, hf, ho, taken_own hf, ownWork, hlevel]
  · simp only [step, hf, ho, taken_own hf, ownWork, hlevel]

theorem ownWork_relabel (hs : Keeps g s) : ownWork (relabel g k s) = relabel g k (ownWork s) := by
  cases hlevel : s.par.level with
  | operation =>
    simp only [ownWork, relabel_par, relabel_ph, hlevel, symbolStep_relabel g k hs]
    rw [apply_ite (relabel g k)]
    congr 1
    exact rowEnd_relabel g k s.seq s
  | symbol => simp only [ownWork, relabel_par, hlevel, symbolStep_relabel g k hs]
  | tick => simp only [ownWork, relabel_par, hlevel, tick_relabel g k hs]

/-- What the host does is the same whatever the bench calls (R111, R254, R311). -/
theorem exec_host_calls (a : HostCommand) (calls : List Code) (h : exec a.op s = .next t) :
    exec a.op { s with bench := calls } = .next { t with bench := calls } := by
  cases a with
  | start =>
    rw [HostCommand.op, exec_acquire] at h ⊢
    cases h
    cases hrest : s.seq.resting with
    | true => rw [acquire_of_resting hrest, acquire_of_resting (by exact hrest)]
    | false =>
      have hbusy : s.busy = true := by rw [State.busy, hrest]; rfl
      rw [acquire_of_busy hbusy, acquire_of_busy (by exact hbusy)]
  | rst =>
    cases h
    rfl
  | latest =>
    cases h
    rfl

/-! ## The obligations -/

/-- The state with another returned value. -/
theorem relabel_res (r : Result) (s : State) : relabel (fun _ => r) id s = { s with res := r } := rfl

/-- Settles O54: a row, a step of the symbol level and a tick commute with a change of the returned value. -/
theorem returnedValueDisturbsNoTransaction : Obligations.ReturnedValueDisturbsNoTransaction := by
  refine ⟨fun i s t r hformat h => ?_, fun s r huse => ?_⟩
  · obtain ⟨q, rfl⟩ := exists_row_of_format hformat
    rw [exec_row] at h ⊢
    cases h
    rw [← relabel_res, ← relabel_res, rowEnd_relabel]
  · have hs : Keeps (fun _ => r) s := .inl huse
    exact ⟨symbolStep_relabel _ id hs, tick_relabel _ id hs⟩

/-- The host does something at this step, or nothing. -/
theorem host_cases (s : State) : (∃ a rest, s.host = some a :: rest) ∨ HostIdle s := by
  match h : s.host with
  | [] => exact .inr (.inl h)
  | none :: rest => exact .inr (.inr ⟨rest, h⟩)
  | some a :: rest => exact .inl ⟨a, rest, rfl⟩

/-- Settles O5: what is in progress commutes with a change of the calls, and while busy `start` and `LATEST` leave it as it is. -/
theorem stepLetsAPrimitiveFinish : Obligations.StepLetsAPrimitiveFinish := by
  refine ⟨fun s t calls hfree h => ?_, fun s rest hbusy => ⟨?_, ?_⟩⟩
  · rcases host_cases s with ⟨a, rest, hhost⟩ | hidle
    · rw [step_asked (s := { s with bench := [] }) hhost] at h
      rw [step_asked (s := { s with bench := calls }) hhost]
      exact exec_host_calls a calls h
    · have hf : ∀ cs : List Code, fetch { s with bench := cs } = ownFetch { s with bench := cs } := fun cs =>
        fetch_own (s := { s with bench := cs }) hidle (.inr hfree)
      rw [step_own (hf [])] at h
      cases h
      rw [step_own (hf calls)]
      exact congrArg Host.Outcome.next
        (ownWork_relabel id (fun _ => calls) (s := { s with host := s.host.tail, bench := [] }) (.inr fun _ => rfl))
  · have hbusy' : State.busy { s with host := rest } = true := hbusy
    rw [step_asked (a := .start) rfl, HostCommand.op, exec_acquire, acquire_of_busy hbusy']
  · rw [step_asked (a := .latest) rfl]
    rfl

end Sys2Proof.Machine
end

section
/-! The checksum as a linear map (R181, R184, R188), and the decoder's corner cases (R252). -/

namespace Sys2Proof.Machine

/-! ## The shift register -/

/-- What is added after the shift, by the bit that leaves (R181, R188). -/
def crcFeedback (v : Bit) : Byte := if v then 0x8C#8 else 0

theorem crcFeedback_xor (v w : Bit) : crcFeedback (v ^^ w) = crcFeedback v ^^^ crcFeedback w := by
  revert v w
  decide

theorem crcShift_eq (c : Byte) : crcShift c = (c >>> 1) ^^^ crcFeedback (c.getLsbD 0) := by
  cases h : c.getLsbD 0 <;> simp [crcShift, crcFeedback, h, -BitVec.getLsbD_eq_getElem]

theorem crcSerialBit_eq (c : Byte) (v : Bit) : crcSerialBit c v = (c >>> 1) ^^^ crcFeedback (c.getLsbD 0 ^^ v) := by
  cases h : c.getLsbD 0 ^^ v <;> simp [crcSerialBit, crcFeedback, h, -BitVec.getLsbD_eq_getElem]

theorem crcShift_xor (a b : Byte) : crcShift (a ^^^ b) = crcShift a ^^^ crcShift b := by
  simp only [crcShift_eq, BitVec.ushiftRight_xor_distrib, BitVec.getLsbD_xor, crcFeedback_xor]
  ac_rfl

/-- No byte but 0 is shifted to 0: the generator's top bit is set, and a shifted byte's is not. -/
theorem crcShift_eq_zero : ∀ {c : Byte}, crcShift c = 0 → c = 0 := by decide

theorem repeat_crcShift_xor (n : Nat) (a b : Byte) :
    Nat.repeat crcShift n (a ^^^ b) = Nat.repeat crcShift n a ^^^ Nat.repeat crcShift n b := by
  induction n with
  | zero => rfl
  | succ n ih => rw [Nat.repeat, Nat.repeat, Nat.repeat, ih, crcShift_xor]

theorem repeat_crcShift_eq_zero {n : Nat} {c : Byte} (h : Nat.repeat crcShift n c = 0) : c = 0 := by
  induction n with
  | zero => exact h
  | succ n ih => exact ih (crcShift_eq_zero h)

/-! ## The table -/

theorem rom_xor (a b : Byte) : rom (a ^^^ b) = rom a ^^^ rom b := by
  simp only [rom_eq_romGenerated, romGenerated, repeat_crcShift_xor]

theorem rom_eq_zero_iff (c : Byte) : rom c = 0 ↔ c = 0 := by
  refine ⟨fun h => ?_, fun h => by rw [h, rom_zero]⟩
  rw [rom_eq_romGenerated] at h
  exact repeat_crcShift_eq_zero h

theorem rom_injective : Function.Injective rom := by
  intro a b h
  have hxor : rom (a ^^^ b) = 0 := by rw [rom_xor, h, BitVec.xor_self]; rfl
  exact BitVec.xor_eq_zero_iff.mp ((rom_eq_zero_iff _).mp hxor)

/-- Settles O27: the generator's steps are linear, and only 0 is stepped to 0. -/
theorem romIsLinearAndAPermutation : Obligations.RomIsLinearAndAPermutation :=
  ⟨rom_xor, Finite.injective_iff_bijective.mp rom_injective⟩

/-! ## The fold -/

theorem crcStep_xor (c d a b : Byte) : crcStep (c ^^^ d) (a ^^^ b) = crcStep c a ^^^ crcStep d b := by
  have hargs : c ^^^ d ^^^ (a ^^^ b) = (c ^^^ a) ^^^ (d ^^^ b) := by ac_rfl
  rw [crcStep, hargs, rom_xor]
  rfl

theorem foldl_crcStep_xor {x y : List Byte} (h : x.length = y.length) (c d : Byte) :
    (List.zipWith (· ^^^ ·) x y).foldl crcStep (c ^^^ d) = x.foldl crcStep c ^^^ y.foldl crcStep d := by
  induction x generalizing y c d with
  | nil =>
    obtain rfl := List.length_eq_zero_iff.mp h.symm
    rfl
  | cons a x ih =>
    cases y with
    | nil => cases h
    | cons b y =>
      rw [List.zipWith_cons_cons, List.foldl_cons, crcStep_xor, ih (Nat.succ.inj h)]
      rfl

/-- 42_crc.md section 3 (a). -/
theorem computeCrc_xor {x y : List Byte} (h : x.length = y.length) :
    computeCrc (List.zipWith (· ^^^ ·) x y) = computeCrc x ^^^ computeCrc y :=
  foldl_crcStep_xor h 0 0

/-- Settles O30. -/
theorem checksumIsLinear : Obligations.ChecksumIsLinear := fun _ _ => computeCrc_xor

/-- Settles O31: the last step is 0 exactly if the register and the byte are the same. -/
theorem checksumSelfCheckPassesOneByteIn256 : Obligations.ChecksumSelfCheckPassesOneByteIn256 := by
  intro m b
  rw [computeCrc_concat, crcStep, rom_eq_zero_iff]
  exact BitVec.xor_eq_zero_iff.trans eq_comm

/-! ## The bit-serial register -/

/-- One bit fed in: a bit that was added to the register beforehand is taken out of it (R188). -/
theorem crcSerialBit_xor (x y : Byte) : crcSerialBit (x ^^^ y) (y.getLsbD 0) = crcShift x ^^^ (y >>> 1) := by
  have hbit : (x.getLsbD 0 ^^ y.getLsbD 0 ^^ y.getLsbD 0) = x.getLsbD 0 := by
    cases x.getLsbD 0 <;> cases y.getLsbD 0 <;> rfl
  rw [crcSerialBit_eq, crcShift_eq, BitVec.getLsbD_xor, hbit, BitVec.ushiftRight_xor_distrib]
  ac_rfl

/-- `n` bits of a byte fed in from bit 0 on: `n` shifts of the register with the byte added beforehand. -/
theorem foldl_crcSerialBit (n : Nat) (x y : Byte) :
    ((List.range n).map y.getLsbD).foldl crcSerialBit (x ^^^ y) = Nat.repeat crcShift n x ^^^ (y >>> n) := by
  induction n with
  | zero => rfl
  | succ n ih =>
    have hbit : y.getLsbD n = (y >>> n).getLsbD 0 := by rw [BitVec.getLsbD_ushiftRight, Nat.add_zero]
    rw [List.range_succ, List.map_append, List.foldl_append, ih, List.map_singleton, List.foldl_cons, List.foldl_nil, hbit,
      crcSerialBit_xor, ← BitVec.shiftRight_add]
    rfl

/-- R188's register, fed with a byte, is the table's step. -/
theorem crcSerialByte_eq (c b : Byte) : crcSerialByte c b = crcStep c b := by
  have hc : c = (c ^^^ b) ^^^ b := by rw [BitVec.xor_assoc, BitVec.xor_self, BitVec.xor_zero]
  have hout : b >>> 8 = 0#8 := BitVec.ushiftRight_eq_zero (by omega)
  have h := foldl_crcSerialBit 8 (c ^^^ b) b
  rw [← hc, hout, BitVec.xor_zero] at h
  rw [crcStep, rom_eq_romGenerated]
  exact h

/-- Settles O33. -/
theorem bitSerialChecksumIsTheTables : Obligations.BitSerialChecksumIsTheTables := crcSerialByte_eq

/-! ## Bursts -/

/-- The checksum is the bit-serial register over the bits in the order of the line (R67, R188). -/
theorem computeCrc_eq_serial (m : List Byte) : computeCrc m = (m.flatMap bitsOf).foldl crcSerialBit 0 := by
  have hstep : crcStep = fun c b => (bitsOf b).foldl crcSerialBit c :=
    funext fun c => funext fun b => (crcSerialByte_eq c b).symm
  rw [List.foldl_flatMap, ← hstep]
  rfl

/-- The bits of nine bytes cut out of 72 bits. -/
theorem flatMap_bitsOf_extract (w : BitVec 72) :
    ((List.range 9).map fun j => (w.extractLsb' (8 * j) 8 : Byte)).flatMap bitsOf = (List.range 72).map w.getLsbD := by
  have hbits : ∀ j : Nat, bitsOf (w.extractLsb' (8 * j) 8) = (List.range 8).map fun i => w.getLsbD (8 * j + i) := fun j => by
    refine List.map_congr_left fun i hi => ?_
    rw [BitVec.getLsbD_extractLsb']
    simp [List.mem_range.mp hi]
  rw [List.flatMap_map]
  simp only [hbits]
  rfl

/-- A burst of eight bits at offset `k` of the 72: the bits before it and after it are 0. -/
theorem bits_of_burst (v : Byte) {k : Nat} (hk : k ≤ 64) :
    (List.range 72).map (v.setWidth 72 <<< k).getLsbD =
      List.replicate k false ++ (bitsOf v ++ List.replicate (64 - k) false) := by
  have hlen : (bitsOf v).length = 8 := rfl
  refine List.ext_getElem (by simp [hlen]; omega) fun n hn _ => ?_
  have hn72 : n < 72 := by simpa using hn
  rw [List.getElem_map, List.getElem_range, BitVec.getLsbD_shiftLeft, BitVec.getLsbD_setWidth, List.getElem_append]
  split_ifs with hbefore
  · have hlt : n < k := by simpa using hbefore
    simp [hlt]
  · have hge : ¬n < k := by simpa using hbefore
    rw [List.getElem_append]
    split_ifs with hburst
    · have hn : n - k < 72 := Nat.lt_of_le_of_lt (Nat.sub_le n k) hn72
      simp [bitsOf, hge, hn72, hn]
    · have hafter : 8 ≤ n - k := by simpa [hlen] using hburst
      simp [BitVec.getLsbD_of_ge v _ hafter]

/-- Bits 0 shift the register. -/
theorem foldl_crcSerialBit_replicate (n : Nat) (c : Byte) :
    (List.replicate n false).foldl crcSerialBit c = Nat.repeat crcShift n c := by
  induction n with
  | zero => rfl
  | succ n ih =>
    rw [List.replicate_succ', List.foldl_append, ih, List.foldl_cons, List.foldl_nil, crcSerialBit_eq, Bool.xor_false,
      ← crcShift_eq]
    rfl

/-- A burst that is not 0 leaves the register at something else than 0. -/
theorem computeCrc_burst_ne_zero {v : Byte} (hv : v ≠ 0) {k : Nat} (hk : k ≤ 64) :
    computeCrc ((List.range 9).map fun j => ((v.setWidth 72 <<< k).extractLsb' (8 * j) 8 : Byte)) ≠ 0 := by
  have hlead : Nat.repeat crcShift k (0 : Byte) = 0 := by
    induction k with
    | zero => rfl
    | succ k ih => rw [Nat.repeat, ih (by omega)]; rfl
  have hburst : (bitsOf v).foldl crcSerialBit 0 = rom v := by
    simpa [crcSerialByte, crcStep] using crcSerialByte_eq 0 v
  rw [computeCrc_eq_serial, flatMap_bitsOf_extract, bits_of_burst v hk, List.foldl_append, List.foldl_append,
    foldl_crcSerialBit_replicate, foldl_crcSerialBit_replicate, hlead, hburst]
  exact fun h => hv ((rom_eq_zero_iff v).mp (repeat_crcShift_eq_zero h))

/-- Settles O32: by linearity the checksum with the error is the error's own. -/
theorem checksumDetectsShortBursts : Obligations.ChecksumDetectsShortBursts := by
  intro m v k hlen hm hv hk
  rw [computeCrc_xor (by simp [hlen]), hm]
  simpa using computeCrc_burst_ne_zero hv hk

/-! ## The temperature decoder -/

/-- A value whose bits 15 to 11 are all equal is read the same at 12, 13, 14 and 15 bits (R252). -/
theorem toInt_setWidth_of_equal_bits {raw : Raw} {w : Nat} (hlo : 12 ≤ w) (hhi : w ≤ 15)
    (h : raw.extractLsb' 11 5 = 0#5 ∨ raw.extractLsb' 11 5 = 0x1F#5) : (raw.setWidth w).toInt = raw.toInt := by
  have hlt := raw.isLt
  have hbits : raw.toNat / 2048 % 32 = 0 ∨ raw.toNat / 2048 % 32 = 31 := by
    rcases h with h | h
    · exact .inl (by simpa [Nat.shiftRight_eq_div_pow] using congrArg BitVec.toNat h)
    · exact .inr (by simpa [Nat.shiftRight_eq_div_pow] using congrArg BitVec.toNat h)
  rw [BitVec.toInt_eq_toNat_cond, BitVec.toInt_eq_toNat_cond, BitVec.toNat_setWidth]
  interval_cases w <;> split_ifs <;> omega

/-- Settles O35. -/
theorem decodeCornerCases : Obligations.DecodeCornerCases :=
  ⟨fun raw => decodeReading_eq ⟨true, raw⟩, by decide, fun _ _ hlo hhi h => toInt_setWidth_of_equal_bits hlo hhi h⟩

end Sys2Proof.Machine
end

section
/-! The operations one by one: their effects, their time and that each completes. -/

namespace Sys2Proof.Machine

variable {s t : State}

/-! ## Reset and the rows that do nothing -/

/-- Settles O3: `resetState` field by field; the bytes of `SP` are a vector of free values. -/
theorem resetLeavesScratchpadAndDeviceOpen : Obligations.ResetLeavesScratchpadAndDeviceOpen := by
  refine fun s => ⟨resetState s, exec_reset s, fun k => ?_, rfl, rfl, rfl, rfl, rfl, rfl⟩
  exact Vector.getElem_ofFn k.isLt

/-- Settles O28: the arm of `CRC_STEP`. -/
theorem crcStepReturnsTheTableEntry : Obligations.CrcStepReturnsTheTableEntry := fun _ _ _ => rfl

/-- Settles O39: the rows of the five resting states are `rowEnd`'s first case. -/
theorem restingStatesStay : Obligations.RestingStatesStay := fun s =>
  ⟨exec_row .idle s, exec_row .committed s, exec_row .discarded s, exec_row .aborted s, exec_row .timedOut s⟩

/-- Settles O48: the reset state is the one after the operation `RESET` but for `SP`, which the invariant does not look at in `Idle`. -/
theorem invariantHoldsAtReset : Obligations.InvariantHoldsAtReset := by
  have hpar : State.reset.par.wf = true := by
    simp [State.reset, Config.Params.wf, Config.clkPerUs]
  exact wf_of_idle ⟨Nat.zero_le 8, Nat.zero_le 9, rfl, hpar, rfl, rfl⟩ rfl (.inr rfl)

/-! ## The sequencer's rows -/

theorem exec_seqStartConversion (s : State) : exec .seqStartConversion s =
    .next { commandBody Config.cmdConvert .conversionWait s with pollcnt := 0 } := rfl

/-- Settles O42: the row is one byte sent, with the convert command. -/
theorem startConversionSendsConvert : Obligations.StartConversionSendsConvert := by
  intro s
  rw [exec_seqStartConversion, commandBody_eq]
  rfl

theorem exec_seqConversionWait (s : State) : exec .seqConversionWait s = .next (pollBody s) := rfl

/-- A poll that read 1 leads on (R206). -/
theorem pollBody_of_one (hone : (atReadSample s).answer = true) : pollBody s = { s with
    dqOe := false, trace := s.trace ++ readSlotEvents true, dqIn := s.dqIn.tail, rxbit := true
    pollcnt := s.pollcnt + 1, seq := .reset2 } := by
  simp [pollBody_eq, hone]

/-- The last poll that the limit allows, reading 0, gives up with no delay after it (R206, R273). -/
theorem pollBody_of_last (hzero : (atReadSample s).answer = false) (hlimit : s.par.pollLimit = some (s.pollcnt + 1)) :
    pollBody s = { s with
      dqOe := false, trace := s.trace ++ readSlotEvents false, dqIn := s.dqIn.tail, rxbit := false
      pollcnt := s.pollcnt + 1, seq := .timedOut } := by
  simp [pollBody_eq, hzero, hlimit]

/-- Any other poll that read 0 waits and stays (R206). -/
theorem pollBody_of_zero (hzero : (atReadSample s).answer = false) (hlimit : s.par.pollLimit ≠ some (s.pollcnt + 1)) :
    pollBody s = { s with
      dqOe := false, trace := s.trace ++ readSlotEvents false ++ [.rel s.par.tPoll], dqIn := s.dqIn.tail, rxbit := false
      pollcnt := s.pollcnt + 1 } := by
  simp [pollBody_eq, hzero, hlimit]

/-- Settles O43: `u` is the state at the poll's sample, and the three clauses are the poll's outcomes. -/
theorem conversionWaitPollsOnce : Obligations.ConversionWaitPollsOnce := by
  refine fun s hseq => ⟨fun (hone : (atReadSample s).answer = true) => ?_,
    fun (hzero : (atReadSample s).answer = false) hlimit => ?_,
    fun (hzero : (atReadSample s).answer = false) hlimit => ?_⟩
  · rw [exec_seqConversionWait, pollBody_of_one hone, trace_append_readSlotEvents, ← hone]
    rfl
  · rw [exec_seqConversionWait, pollBody_of_last hzero hlimit, trace_append_readSlotEvents, ← hzero]
    rfl
  · rw [exec_seqConversionWait, pollBody_of_zero hzero hlimit, trace_append_readSlotEvents, ← hzero]
    rfl

/-! ## Bytes -/

/-- The slots of the three command bytes, low times and released times (R98). -/
theorem sentByteEvents_commands :
    sentByteEvents Config.cmdSelectAll = [.low 60, .rel 5, .low 60, .rel 5, .low 5, .rel 60, .low 5, .rel 60,
      .low 60, .rel 5, .low 60, .rel 5, .low 5, .rel 60, .low 5, .rel 60] ∧
    sentByteEvents Config.cmdConvert = [.low 60, .rel 5, .low 60, .rel 5, .low 5, .rel 60, .low 60, .rel 5,
      .low 60, .rel 5, .low 60, .rel 5, .low 5, .rel 60, .low 60, .rel 5] ∧
    sentByteEvents Config.cmdReadSp = [.low 60, .rel 5, .low 5, .rel 60, .low 5, .rel 60, .low 5, .rel 60,
      .low 5, .rel 60, .low 5, .rel 60, .low 60, .rel 5, .low 5, .rel 60] := ⟨rfl, rfl, rfl⟩

theorem exec_selectAll (s : State) : exec .selectAll s = exec (.txByte Config.cmdSelectAll) s := rfl

theorem exec_convert (s : State) : exec .convert s = exec (.txByte Config.cmdConvert) s := rfl

theorem exec_readSp (s : State) : exec .readSp s = exec (.txByte Config.cmdReadSp) s := rfl

/-- Settles O24: each bus command is the `TX_BYTE` of its byte. -/
theorem busCommandsSendTheirSlots : Obligations.BusCommandsSendTheirSlots := by
  intro s
  obtain ⟨hselect, hconvert, hread⟩ := sentByteEvents_commands
  rw [exec_selectAll, exec_convert, exec_readSp, exec_txByte_eq, exec_txByte_eq, exec_txByte_eq, hselect, hconvert, hread]
  exact ⟨rfl, rfl, rfl⟩

/-! ## Time -/

@[simp] theorem duration_append (es fs : List Event) : duration (es ++ fs) = duration es + duration fs := by
  induction es with
  | nil => simp [duration]
  | cons e es ih => cases e <;> simp [duration, ih, Nat.add_assoc]

@[simp] theorem duration_writeSlotEvents (v : Bit) : duration (writeSlotEvents v) = 65 := by cases v <;> rfl

@[simp] theorem duration_readSlotEvents (v : Bit) : duration (readSlotEvents v) = 65 := rfl

@[simp] theorem duration_resetEvents (p : Bit) : duration (resetEvents p) = if p then 565 else 1000 := by cases p <;> rfl

/-- Slots of 65 µs each. -/
theorem duration_flatMap {f : Bit → List Event} (hf : ∀ v, duration (f v) = 65) (bits : List Bit) :
    duration (bits.flatMap f) = 65 * bits.length := by
  induction bits with
  | nil => rfl
  | cons v bits ih =>
    rw [List.flatMap_cons, duration_append, hf, ih, List.length_cons]
    omega

@[simp] theorem duration_sentByteEvents (b : Byte) : duration (sentByteEvents b) = 520 :=
  duration_flatMap duration_writeSlotEvents (bitsOf b)

@[simp] theorem duration_receivedByteEvents (b : Byte) : duration (receivedByteEvents b) = 520 :=
  duration_flatMap duration_readSlotEvents (bitsOf b)

theorem duration_exec_txByte {b : Byte} (h : exec (.txByte b) s = .next t) : duration t.trace = duration s.trace + 520 := by
  rw [exec_txByte_eq] at h
  cases h
  simp

/-- Settles O20: the time of the events that each operation appends. -/
theorem symbolsAndBytesLastTheirTime : Obligations.SymbolsAndBytesLastTheirTime := by
  refine ⟨fun s t h => ?_, fun s t h => ?_, fun b s t h => ?_⟩
  · rw [exec_resetDetect, resetDetect_eq] at h
    cases h
    cases (atPresenceSample s).answer <;> simp [presenceOf]
  · rw [exec_w1, exec_w0, exec_readBit, writeBit_eq, writeBit_eq, readBit_eq] at h
    rcases h with h | h | h <;> cases h <;> simp
  · rw [exec_selectAll, exec_convert, exec_readSp] at h
    rcases h with h | h | h | h | h
    · exact duration_exec_txByte h
    · obtain ⟨c, -, hexec⟩ := exec_rxByte_eq s
      rw [hexec] at h
      cases h
      simp
    · exact duration_exec_txByte h
    · exact duration_exec_txByte h
    · exact duration_exec_txByte h

/-! ## Delays -/

/-- A countdown that has not ended changes `TMR` alone (R23). -/
theorem ticks_counting (k : Nat) (s : State) (hk : k ≤ s.tmr) :
    ticks k s = { s with tmr := s.tmr - k } ∧ elapsed k s = k := by
  induction k generalizing s with
  | zero => exact ⟨rfl, rfl⟩
  | succ k ih =>
    have htmr : s.tmr ≠ 0 := by omega
    have hcount : k ≤ s.tmr - 1 := by omega
    obtain ⟨hticks, helapsed⟩ := ih { s with tmr := s.tmr - 1 } hcount
    rw [ticks, elapsed, tick_of_ne_zero htmr, hticks, helapsed, if_neg htmr, Nat.sub_sub, Nat.add_comm 1 k]
    exact ⟨rfl, rfl⟩

theorem runCall_delay {n : Nat} (hlevel : s.par.level = .tick) : runCall (.delay n) s = .next { s with
    trace := s.trace ++ [if s.dqOe then .low n else .rel n], tmr := n, res := .none } := by
  simp only [runCall, hlevel, begun]
  rfl

/-- Settles O15: the event by the line mode, and the countdown from the loaded `TMR`. -/
theorem delayIsAnEventAndACountdown : Obligations.DelayIsAnEventAndACountdown := by
  refine ⟨exec_delay, fun n k s hlevel hk => ⟨runCall_delay hlevel, ticks_counting k _ hk⟩,
    fun k s ht hk => ⟨?_, ticks_counting k _ hk⟩⟩
  rw [enterPhase_timed s ht]

/-! ## Completion -/

/-- Settles O47: every arm is an answer of its own but `SAMPLE`'s, which the released line decides. -/
theorem everyOperationCompletes : Obligations.EveryOperationCompletes := by
  intro i s hsample
  cases i with
  | sample => exact ⟨_, exec_sample_released (hsample rfl)⟩
  | driveLow | release | delay n | resetDetect | w1 | w0 | readBit => exact ⟨_, rfl⟩
  | txByte b | rxByte | selectAll | convert | readSp => exact ⟨_, rfl⟩
  | crcStep c b | computeCrc m | decode r | latest | acquire | reset => exact ⟨_, rfl⟩
  | seqIdle | seqReset1 | seqSelectAll1 | seqStartConversion | seqConversionWait | seqReset2 => exact ⟨_, rfl⟩
  | seqSelectAll2 | seqReadScratchpad | seqValidate | seqCommitted | seqDiscarded | seqAborted | seqTimedOut =>
    exact ⟨_, rfl⟩

end Sys2Proof.Machine
end

section
/-! Whole transactions at the operation level (R218 to R222, R319): one row a step, from the plan of the device's answers. -/

namespace Sys2Proof.Machine

variable {s t u : State} {rest : List Bit}

/-! ## Runs -/

theorem runSteps_one (h : step s = .next t) : runSteps 1 s = .next t := by
  rw [runSteps, h]
  rfl

theorem runSteps_add {m n : Nat} (h : runSteps m s = .next t) : runSteps (m + n) s = runSteps n t := by
  induction m generalizing s with
  | zero =>
    cases h
    rw [Nat.zero_add]
  | succ m ih =>
    rw [Nat.succ_add, runSteps]
    cases hstep : step s with
    | next u =>
      rw [runSteps, hstep] at h
      exact ih h
    | fault f => cases f
    | refused r =>
      rw [runSteps, hstep] at h
      cases h

theorem runSteps_trans {m n : Nat} (h : runSteps m s = .next t) (k : runSteps n t = .next u) :
    runSteps (m + n) s = .next u := (runSteps_add h).trans k

/-- A block that runs by itself at the operation level runs its state's row. -/
theorem step_runsAlone (h : RunsAlone s) : step s = .next (bodyEnd s) := by
  obtain ⟨hlevel, hph, hhost, hbench⟩ := h
  have htaken : ({ s with host := s.host.tail } : State) = s := by rw [hhost, List.tail_nil, ← hhost]
  rw [step_own (fetch_own (.inl hhost) (.inl hbench)), htaken, ownWork_row hlevel hph]

/-- The start of a transaction (R201). -/
def started (s : State) : State := { s with host := [], seq := .reset1, res := .none }

theorem step_start (h : StartsTransaction s) : step s = .next (started s) ∧ RunsAlone (started s) := by
  obtain ⟨hrest, hlevel, hph, hhost, hbench⟩ := h
  refine ⟨?_, hlevel, hph, rfl, hbench⟩
  rw [step_asked hhost, HostCommand.op, exec_acquire, acquire_of_resting (by exact hrest)]
  rfl

/-! ## From `Reset1` to `ConversionWait` -/

/-- The state after the first half of a transaction (R99, R219). -/
def converted (rest : List Bit) (s : State) : State := { s with
  dqOe := false, trace := s.trace ++ convertEvents, dqIn := rest, pres := true, shr := 0, bitcnt := 8
  seq := .conversionWait, pollcnt := 0 }

theorem answer_atPresenceSample {b : Bit} (h : s.dqIn = b :: rest) : (atPresenceSample s).answer = b :=
  answer_cons (atPresenceSample s) (bs := rest) h

/-- A reset state with presence planned (R203, R207). -/
theorem step_reset_present (h : RunsAlone s) (hseq : s.seq = .reset1 ∨ s.seq = .reset2) (hplan : s.dqIn = false :: rest) :
    step s = .next { s with
      dqOe := false, trace := s.trace ++ resetEvents false, dqIn := rest, pres := true, seq := s.seq.afterPresence } := by
  rw [step_runsAlone h, bodyEnd_reset hseq, resetBody_eq, answer_atPresenceSample hplan, hplan]
  rfl

/-- A reset state without presence planned (R203, R207, R271). -/
theorem step_reset_absent (h : RunsAlone s) (hseq : s.seq = .reset1 ∨ s.seq = .reset2) (hplan : s.dqIn = true :: rest) :
    step s = .next { s with
      dqOe := false, trace := s.trace ++ resetEvents true, dqIn := rest, pres := false, seq := .aborted } := by
  rw [step_runsAlone h, bodyEnd_reset hseq, resetBody_eq, answer_atPresenceSample hplan, hplan]
  rfl

theorem step_selectAll (h : RunsAlone s) (hseq : s.seq = .selectAll1 ∨ s.seq = .selectAll2) : step s = .next { s with
    dqOe := false, trace := s.trace ++ sentByteEvents Config.cmdSelectAll, shr := 0, bitcnt := 8
    seq := s.seq.afterByte } := by
  rw [step_runsAlone h, bodyEnd_selectAll hseq, commandBody_eq]

theorem step_startConversion (h : RunsAlone s) (hseq : s.seq = .startConversion) : step s = .next { s with
    dqOe := false, trace := s.trace ++ sentByteEvents Config.cmdConvert, shr := 0, bitcnt := 8
    seq := .conversionWait, pollcnt := 0 } := by
  rw [step_runsAlone h, bodyEnd_startConversion hseq, commandBody_eq]

/-- Presence, the select command and the convert command: three steps. -/
theorem run_converted (h : RunsAlone s) (hseq : s.seq = .reset1) (hplan : s.dqIn = false :: rest) :
    runSteps 3 s = .next (converted rest s) := by
  have h1 := step_reset_present h (.inl hseq) hplan
  rw [hseq] at h1
  have h2 := runSteps_trans (runSteps_one h1) (runSteps_one (step_selectAll (by exact h) (.inl rfl)))
  have h3 := runSteps_trans h2 (runSteps_one (step_startConversion (by exact h) rfl))
  rw [h3, converted, convertEvents, ← List.append_assoc, ← List.append_assoc]
  rfl

/-! ## Polls -/

/-- The state after polls that read 0 (R206). -/
def polledZeros (k : Nat) (rest : List Bit) (s : State) : State := { s with
  dqOe := s.dqOe && k == 0, trace := s.trace ++ failedPollEvents k s.par.tPoll, dqIn := rest
  rxbit := s.rxbit && k == 0, pollcnt := s.pollcnt + k }

theorem answer_atReadSample_cons {b : Bit} (h : s.dqIn = b :: rest) : (atReadSample s).answer = b :=
  answer_cons (atReadSample s) (bs := rest) h

theorem failedPollEvents_succ (k n : Nat) :
    failedPollEvents (k + 1) n = readSlotEvents false ++ [.rel n] ++ failedPollEvents k n := by
  simp [failedPollEvents, List.replicate_succ]

/-- Polls that read 0 below the limit: a step for each. -/
theorem run_polledZeros (k : Nat) (h : RunsAlone s) (hseq : s.seq = .conversionWait)
    (hlimit : ∀ n, s.par.pollLimit = some n → s.pollcnt + k < n) (hplan : s.dqIn = List.replicate k false ++ rest) :
    runSteps k s = .next (polledZeros k rest s) := by
  induction k generalizing s with
  | zero =>
    have hrest : s.dqIn = rest := hplan
    rw [polledZeros, ← hrest]
    simp [runSteps, failedPollEvents]
  | succ k ih =>
    have hne : s.par.pollLimit ≠ some (s.pollcnt + 1) := fun he => by
      have := hlimit _ he
      omega
    have hstep := step_runsAlone h
    rw [bodyEnd_conversionWait hseq, pollBody_of_zero (answer_atReadSample_cons hplan) hne] at hstep
    have htail := ih (s := { s with
      dqOe := false, trace := s.trace ++ readSlotEvents false ++ [.rel s.par.tPoll], dqIn := s.dqIn.tail, rxbit := false
      pollcnt := s.pollcnt + 1 }) (by exact h) hseq (fun n hn => by have := hlimit n hn; dsimp only; omega)
      (by rw [hplan]; rfl)
    rw [Nat.add_comm k 1, runSteps_trans (runSteps_one hstep) htail]
    simp [polledZeros, Nat.add_comm 1 k, failedPollEvents_succ, Nat.add_assoc]

/-- The state after a poll that read 1 (R206). -/
def polledOne (rest : List Bit) (s : State) : State := { s with
  dqOe := false, trace := s.trace ++ readSlotEvents true, dqIn := rest, rxbit := true, pollcnt := s.pollcnt + 1
  seq := .reset2 }

theorem run_polledOne (h : RunsAlone s) (hseq : s.seq = .conversionWait) (hplan : s.dqIn = true :: rest) :
    runSteps 1 s = .next (polledOne rest s) := by
  refine runSteps_one ?_
  rw [step_runsAlone h, bodyEnd_conversionWait hseq, pollBody_of_one (answer_atReadSample_cons hplan), hplan]
  rfl

/-- Settles O58: without a limit, `n` polls that read 0 are `n` steps in `ConversionWait`. -/
theorem stuckDeviceStallsTheSequencer : Obligations.StuckDeviceStallsTheSequencer := by
  intro s n rest h hseq hlimit hplan
  refine ⟨polledZeros n rest s, run_polledZeros n h hseq (fun m hm => ?_) hplan, hseq, ?_, ⟨rfl, rfl⟩, rfl, rfl, rfl⟩
  · rw [hlimit] at hm
    cases hm
  · rw [State.busy, polledZeros, hseq]
    rfl

/-! ## The scratchpad -/

/-- The bits of bytes one after another (R67, R209). -/
theorem flatMap_bitsOf_getElem? (bs : List Byte) (rest : List Bit) {k : Nat} (hk : k < 8 * bs.length) :
    (bs.flatMap bitsOf ++ rest)[k]? = some ((bs.getD (k / 8) 0).getLsbD (k % 8)) := by
  induction bs generalizing k with
  | nil => simp at hk
  | cons b bs ih =>
    have hlen : (bitsOf b).length = 8 := rfl
    rw [List.flatMap_cons, List.append_assoc]
    by_cases hk8 : k < 8
    · rw [List.getElem?_append_left (by rw [hlen]; exact hk8), bitsOf_getElem? b hk8, Nat.div_eq_of_lt hk8,
        Nat.mod_eq_of_lt hk8]
      rfl
    · obtain ⟨j, rfl⟩ : ∃ j, k = j + 8 := ⟨k - 8, by omega⟩
      have hj : j < 8 * bs.length := by rw [List.length_cons] at hk; omega
      rw [List.getElem?_append_right (by rw [hlen]; omega), hlen, Nat.add_sub_cancel, ih hj, Nat.add_mod_right,
        Nat.add_div_right j (by omega)]
      rfl

/-- Nine bytes are known by their 72 bits. -/
theorem eq_of_bits {m m' : Vector Byte 9} (h : ∀ k, k < 72 →
    (m'.toList.getD (k / 8) 0).getLsbD (k % 8) = (m.toList.getD (k / 8) 0).getLsbD (k % 8)) : m' = m := by
  refine Vector.ext fun j hj => BitVec.eq_of_getLsbD_eq fun i hi => ?_
  have hk := h (8 * j + i) (by omega)
  have hdiv : (8 * j + i) / 8 = j := by omega
  have hmod : (8 * j + i) % 8 = i := by omega
  simpa [hdiv, hmod, hj, List.getD_eq_getElem?_getD] using hk

/-- The row of `ReadScratchpad` with nine bytes planned (R209). -/
theorem step_readScratchpad (h : RunsAlone s) (hseq : s.seq = .readScratchpad) (m : Vector Byte 9)
    (hplan : s.dqIn = m.toList.flatMap bitsOf ++ rest) : step s = .next { s with
      dqOe := false, trace := s.trace ++ sentByteEvents Config.cmdReadSp ++ m.toList.flatMap receivedByteEvents
      dqIn := rest, shr := m[8], bitcnt := 8, bytecnt := 9, sp := m, rxbit := m[8].getLsbD 7, seq := .validate } := by
  obtain ⟨m', hbits, he⟩ := readScratchpadBody_eq s
  have hlen : (m.toList.flatMap bitsOf).length = 72 := by
    have : ∀ b ∈ m.toList, (bitsOf b).length = 8 := fun _ _ => rfl
    rw [List.length_flatMap, List.map_congr_left this]
    simp
  have hm : m' = m := eq_of_bits fun k hk => hbits k _ hk (by
    rw [hplan, flatMap_bitsOf_getElem? m.toList rest (by simpa using hk)])
  rw [step_runsAlone h, bodyEnd_readScratchpad hseq, he, hm, hplan, List.drop_left' hlen]

/-- The state after the second half of a transaction that receives the bytes `m`, `Validate` still to come (R100, R219). -/
def received (m : Vector Byte 9) (rest : List Bit) (s : State) : State := { s with
  dqOe := false, trace := s.trace ++ readEvents m.toList, dqIn := rest, pres := true, shr := m[8], bitcnt := 8
  bytecnt := 9, sp := m, rxbit := m[8].getLsbD 7, seq := .validate }

theorem run_received (h : RunsAlone s) (hseq : s.seq = .reset2) (m : Vector Byte 9)
    (hplan : s.dqIn = false :: (m.toList.flatMap bitsOf ++ rest)) : runSteps 3 s = .next (received m rest s) := by
  have h1 := step_reset_present h (.inr hseq) hplan
  rw [hseq] at h1
  have h2 := runSteps_trans (runSteps_one h1) (runSteps_one (step_selectAll (by exact h) (.inr rfl)))
  have h3 := runSteps_trans h2 (runSteps_one (step_readScratchpad (by exact h) rfl m rfl))
  rw [h3, received, readEvents]
  simp only [← List.append_assoc]
  rfl

/-! ## The transaction -/

/-- The first half and `k` polls that read 0, from the start of a transaction (R99, R206). -/
def waited (k : Nat) (rest : List Bit) (s : State) : State :=
  polledZeros k rest (converted (List.replicate k false ++ rest) (started s))

theorem run_waited (k : Nat) (h : StartsTransaction s) (hlimit : ∀ n, s.par.pollLimit = some n → k < n)
    (hplan : s.dqIn = false :: (List.replicate k false ++ rest)) :
    runSteps (1 + 3 + k) s = .next (waited k rest s) ∧ RunsAlone (waited k rest s) := by
  obtain ⟨hstart, halone⟩ := step_start h
  have hconverted := runSteps_trans (runSteps_one hstart) (run_converted halone rfl hplan)
  refine ⟨runSteps_trans hconverted ?_, halone⟩
  exact run_polledZeros k (by exact halone) rfl (fun n hn => by have := hlimit n hn; simpa [converted] using this) rfl

/-- The time of the first half and `k` polls (R220). -/
theorem duration_waited (k : Nat) (s : State) :
    duration (waited k rest s).trace = duration s.trace + 2040 + (65 + s.par.tPoll) * k := by
  have hpolls : ∀ j n, duration (failedPollEvents j n) = (65 + n) * j := fun j n => by
    induction j with
    | zero => rfl
    | succ j ih =>
      rw [failedPollEvents_succ, duration_append, ih]
      simp [duration, Nat.mul_succ]
      omega
  simp [waited, polledZeros, converted, convertEvents, started, hpolls]
  omega

theorem duration_readEvents (m : Vector Byte 9) : duration (readEvents m.toList) = 6720 := by
  have hbytes : ∀ bs : List Byte, duration (bs.flatMap receivedByteEvents) = 520 * bs.length := fun bs => by
    induction bs with
    | nil => rfl
    | cons b bs ih =>
      rw [List.flatMap_cons, duration_append, ih, duration_receivedByteEvents, List.length_cons]
      omega
  simp [readEvents, hbytes]

/-- The state in `Validate` after a transaction with `k` polls that read 0, one that read 1, and the bytes `m` (R218). -/
def toBeValidated (k : Nat) (m : Vector Byte 9) (rest : List Bit) (s : State) : State :=
  received m rest (polledOne (false :: (m.toList.flatMap bitsOf ++ rest))
    (waited k (true :: false :: (m.toList.flatMap bitsOf ++ rest)) s))

theorem run_toBeValidated (k : Nat) (m : Vector Byte 9) (h : StartsTransaction s)
    (hlimit : ∀ n, s.par.pollLimit = some n → k < n)
    (hplan : s.dqIn = false :: (List.replicate k false ++ true :: false :: (m.toList.flatMap bitsOf ++ rest))) :
    runSteps (1 + 3 + k + 1 + 3) s = .next (toBeValidated k m rest s) ∧ RunsAlone (toBeValidated k m rest s) := by
  obtain ⟨hwaited, halone⟩ := run_waited k h hlimit hplan
  have hone := runSteps_trans hwaited (run_polledOne halone rfl rfl)
  exact ⟨runSteps_trans hone (run_received (by exact halone) rfl m rfl), halone⟩

theorem duration_toBeValidated (k : Nat) (m : Vector Byte 9) (s : State) :
    duration (toBeValidated k m rest s).trace = duration s.trace + 8760 + 65 * (k + 1) + s.par.tPoll * k := by
  rw [toBeValidated, received, duration_append, duration_readEvents, polledOne, duration_append, duration_waited,
    duration_readSlotEvents, Nat.add_mul]
  omega

/-- Settles O55: the run up to `Validate`, and then the checksum. -/
theorem transactionCommitsOrDiscards : Obligations.TransactionCommitsOrDiscards := by
  intro s m k rest h hlimit hplan
  obtain ⟨hrun, halone⟩ := run_toBeValidated k m h hlimit hplan
  have hvalidate := step_runsAlone halone
  rw [bodyEnd_validate rfl] at hvalidate
  have hsteps : k + 9 = 1 + 3 + k + 1 + 3 + 1 := by omega
  rw [hsteps]
  refine ⟨_, runSteps_trans hrun (runSteps_one hvalidate), ?_⟩
  have hpollcnt : (toBeValidated k m rest s).pollcnt = k + 1 := by
    simp [toBeValidated, received, polledOne, waited, polledZeros, converted]
  have htime := duration_toBeValidated (rest := rest) k m s
  by_cases hcrc : computeCrc (m.toList.take 8) = m[8]
  · rw [validateBody_of_match (by exact hcrc)]
    exact ⟨rfl, htime, rfl, rfl, rfl, hpollcnt, rfl, fun _ => ⟨rfl, rfl, rfl⟩, fun hne => absurd hcrc hne⟩
  · rw [validateBody_of_mismatch (by exact hcrc)]
    exact ⟨rfl, htime, rfl, rfl, rfl, hpollcnt, rfl, fun he => absurd he hcrc, fun _ => ⟨rfl, rfl, rfl⟩⟩

/-- Settles O56: the first reset frame without presence, or the second after `k` polls. -/
theorem transactionAbortsWithoutPresence : Obligations.TransactionAbortsWithoutPresence := by
  refine fun s k rest h hlimit => ⟨fun hplan => ?_, fun hplan => ?_⟩
  · obtain ⟨hstart, halone⟩ := step_start h
    have habsent := step_reset_absent halone (.inl rfl) hplan
    exact ⟨_, runSteps_trans (runSteps_one hstart) (runSteps_one habsent), rfl, ⟨rfl, rfl⟩, rfl, rfl, rfl, rfl,
      by simp [started]⟩
  · obtain ⟨hwaited, halone⟩ := run_waited k h hlimit hplan
    have hone := runSteps_trans hwaited (run_polledOne halone rfl rfl)
    have habsent := step_reset_absent (s := polledOne (true :: rest) (waited k (true :: true :: rest) s)) halone (.inr rfl) rfl
    have hsteps : k + 6 = 1 + 3 + k + 1 + 1 := by omega
    rw [hsteps]
    refine ⟨_, runSteps_trans hone (runSteps_one habsent), rfl, ⟨rfl, rfl⟩, rfl, rfl, rfl, rfl, ?_⟩
    rw [duration_append, polledOne, duration_append, duration_waited, duration_readSlotEvents, duration_resetEvents,
      if_pos rfl, Nat.add_mul]
    omega

/-- Settles O57: `n` polls below the limit, and the last one that it allows. -/
theorem transactionTimesOutAtThePollLimit : Obligations.TransactionTimesOutAtThePollLimit := by
  intro s n rest h hlimit hplan
  have hplan' : s.dqIn = false :: (List.replicate n false ++ (false :: rest)) := by
    rw [hplan, List.replicate_succ', List.append_assoc, List.singleton_append]
  have hbelow : ∀ m, s.par.pollLimit = some m → n < m := fun m hm => by
    rw [hlimit] at hm
    cases hm
    omega
  obtain ⟨hwaited, halone⟩ := run_waited n h hbelow hplan'
  have hcount : (waited n (false :: rest) s).pollcnt = n := by simp [waited, polledZeros, converted]
  have hlast := step_runsAlone halone
  rw [bodyEnd_conversionWait rfl, pollBody_of_last (answer_atReadSample_cons rfl) (by rw [hcount]; exact hlimit)] at hlast
  have hsteps : n + 5 = 1 + 3 + n + 1 := by omega
  rw [hsteps]
  refine ⟨_, runSteps_trans hwaited (runSteps_one hlast), rfl, ⟨rfl, rfl⟩, rfl, rfl, rfl,
    congrArg (· + 1) hcount, rfl, ?_⟩
  rw [duration_append, duration_waited, duration_readSlotEvents, Nat.add_mul]
  omega

end Sys2Proof.Machine
end

section
/-! The internal registers never show (R42): two transactions that differ in them give the same trace and the same outputs. -/

namespace Sys2Proof.Machine

/-- The state with the internal registers of `x` (R42, `10_state.md` section 9). -/
def State.inside (s x : State) : State := { s with
  shr := x.shr, bitcnt := x.bitcnt, sp := x.sp, bytecnt := x.bytecnt, crc := x.crc, pres := x.pres, rxbit := x.rxbit
  pollcnt := x.pollcnt }

/-- The state with those internal registers of `x` that a received byte does not touch (R161). -/
def State.beyondByte (s x : State) : State := { s with
  sp := x.sp, bytecnt := x.bytecnt, crc := x.crc, pres := x.pres, pollcnt := x.pollcnt }

variable {s u x : State}

/-! ## Received bytes -/

theorem rxSlots_beyondByte (n : Nat) (s x : State) : rxSlots n (s.beyondByte x) = (rxSlots n s).beyondByte x := by
  induction n generalizing s with
  | zero => rfl
  | succ n ih =>
    have hslot : rxSlot (s.beyondByte x) = (rxSlot s).beyondByte x := by
      rw [rxSlot_eq, rxSlot_eq]
      rfl
    rw [rxSlots, rxSlots, hslot, ih]

/-- A received byte depends on no internal register: `SHR` and `BITCNT` are cleared, and `RXBIT` is written before it is read (R161). -/
theorem rxByte_inside (s x : State) : rxByte (s.inside x) = (rxByte s).beyondByte x := by
  have hbyte : ∀ v : State, rxByte v = rxSlots 7 (rxSlot { v with shr := 0, bitcnt := 0 }) := fun _ => rfl
  have hslot : rxSlot { s.inside x with shr := 0, bitcnt := 0 } =
      (rxSlot { s with shr := 0, bitcnt := 0 }).beyondByte x := by
    rw [rxSlot_eq, rxSlot_eq]
    rfl
  rw [hbyte, hbyte, hslot, rxSlots_beyondByte]

theorem rxByte_bytecnt (s : State) : (rxByte s).bytecnt = s.bytecnt := by
  obtain ⟨b, -, h⟩ := rxByte_eq s
  rw [h]

theorem rxByte_sp (s : State) : (rxByte s).sp = s.sp := by
  obtain ⟨b, -, h⟩ := rxByte_eq s
  rw [h]

/-- Two states that receive the same bytes: they differ in internal registers alone, and the bytes received so far are the same. -/
structure ReceiveAlike (s u : State) : Prop where
  inside : u = s.inside u
  bytecnt_eq : u.bytecnt = s.bytecnt
  sp_eq : ∀ j (h : j < 9), j < s.bytecnt.toNat → u.sp[j] = s.sp[j]

/-- One byte received and stored (R209). -/
def storeByte (s : State) : State := (rxByte s).storeSp (rxByte s).shr

theorem storeByte_bytecnt (s : State) : (storeByte s).bytecnt = s.bytecnt + 1 := by
  rw [storeByte, storeSp_bytecnt, rxByte_bytecnt]

theorem storeByte_sp (s : State) : (storeByte s).sp = s.sp.setIfInBounds s.bytecnt.toNat (rxByte s).shr := by
  rw [storeByte, storeSp_sp, rxByte_bytecnt, rxByte_sp]

theorem ReceiveAlike.storeByte (h : ReceiveAlike s u) (hlt : s.bytecnt.toNat < 9) :
    ReceiveAlike (storeByte s) (storeByte u) := by
  have hbyte : rxByte u = (rxByte s).beyondByte u := by
    rw [h.inside]
    exact rxByte_inside s u
  have hshr : (rxByte u).shr = (rxByte s).shr := by rw [hbyte]; rfl
  refine ⟨?_, ?_, fun j hj hjlt => ?_⟩
  · rw [Machine.storeByte, hbyte]
    rfl
  · rw [storeByte_bytecnt, storeByte_bytecnt, h.bytecnt_eq]
  · rw [storeByte_bytecnt] at hjlt
    simp only [storeByte_sp, hshr, h.bytecnt_eq, Vector.getElem_setIfInBounds]
    split_ifs with hlast
    · rfl
    · refine h.sp_eq j hj ?_
      have : (s.bytecnt + 1).toNat = s.bytecnt.toNat + 1 := by bv_omega
      omega

theorem ReceiveAlike.receiveBytes (n : Nat) (h : ReceiveAlike s u) (hlt : s.bytecnt.toNat + n ≤ 9) :
    ReceiveAlike (receiveBytes n s) (receiveBytes n u) ∧ (receiveBytes n s).bytecnt.toNat = s.bytecnt.toNat + n := by
  induction n generalizing s u with
  | zero => exact ⟨h, rfl⟩
  | succ n ih =>
    have hcnt : (Machine.storeByte s).bytecnt.toNat = s.bytecnt.toNat + 1 := by
      rw [storeByte_bytecnt]
      bv_omega
    obtain ⟨halike, hbytes⟩ := ih (h.storeByte (by omega)) (by omega)
    exact ⟨halike, hbytes.trans (by omega)⟩

/-! ## The rows -/

/-- Two states that differ in internal registers alone, those that `SEQ` reads excepted: the polls while waiting, the scratchpad while
validating (R42). -/
structure Alike (s u : State) : Prop where
  inside : u = s.inside u
  pollcnt_eq : s.seq = .conversionWait → u.pollcnt = s.pollcnt
  sp_eq : s.seq = .validate → u.sp = s.sp

theorem Alike.of_ne (h : u = s.inside u) (hpoll : s.seq ≠ .conversionWait) (hsp : s.seq ≠ .validate) : Alike s u :=
  ⟨h, fun hseq => absurd hseq hpoll, fun hseq => absurd hseq hsp⟩

theorem readScratchpadBody_alike (s x : State) : Alike (readScratchpadBody s) (readScratchpadBody (s.inside x)) := by
  have hsent : ReceiveAlike { txByte Config.cmdReadSp s with bytecnt := 0 }
      { txByte Config.cmdReadSp (s.inside x) with bytecnt := 0 } := by
    rw [txByte_eq, txByte_eq]
    exact ⟨rfl, rfl, fun j _ hj => absurd hj (Nat.not_lt_zero j)⟩
  obtain ⟨halike, hbytes⟩ := hsent.receiveBytes 9 (Nat.le_refl 9)
  rw [readScratchpadBody, readScratchpadBody]
  generalize receiveBytes 9 _ = t at halike hbytes ⊢
  generalize receiveBytes 9 _ = v at halike ⊢
  refine ⟨?_, fun hq => (by cases hq), fun _ => Vector.ext fun j hj => halike.sp_eq j hj (hbytes ▸ hj)⟩
  rw [halike.inside]
  rfl

theorem pollBody_alike (hseq : s.seq = .conversionWait) (hpoll : x.pollcnt = s.pollcnt) : Alike (pollBody s) (pollBody (s.inside x)) := by
  have hcount : (s.inside x).pollcnt = s.pollcnt := hpoll
  rw [pollBody_eq, pollBody_eq, hcount]
  refine ⟨rfl, fun _ => rfl, fun hq => ?_⟩
  simp only [hseq] at hq
  split_ifs at hq

theorem validateBody_alike (hsp : x.sp = s.sp) : Alike (validateBody s) (validateBody (s.inside x)) := by
  have hmessage : (s.inside x).spMessage = s.spMessage := congrArg (fun v : Vector Byte 9 => v.toList.take 8) hsp
  have hchecksum : (s.inside x).spChecksum = s.spChecksum := congrArg (fun v : Vector Byte 9 => v[8]) hsp
  have hraw : (s.inside x).spRaw = s.spRaw := congrArg (fun v : Vector Byte 9 => v[1] ++ v[0]) hsp
  rw [validateBody_eq, validateBody_eq, hmessage, hchecksum, hraw]
  exact ⟨rfl, fun hq => by split_ifs at hq, fun _ => hsp⟩

theorem Alike.bodyEnd (h : Alike s u) : Alike (bodyEnd s) (bodyEnd u) := by
  obtain ⟨hin, hpoll, hsp⟩ := h
  rw [hin] at hpoll hsp ⊢
  rcases seq_cases s.seq with hseq | hseq | hseq | hseq | hseq | hseq | hseq
  · rw [bodyEnd_resting hseq, bodyEnd_resting (by exact hseq)]
    exact ⟨rfl, hpoll, hsp⟩
  · rw [bodyEnd_reset hseq, bodyEnd_reset (by exact hseq), resetBody_eq, resetBody_eq]
    refine .of_ne rfl ?_ ?_ <;> rcases hseq with hseq | hseq <;> cases (atPresenceSample s).answer <;>
      simp [hseq, SeqState.afterPresence]
  · rw [bodyEnd_selectAll hseq, bodyEnd_selectAll (by exact hseq), commandBody_eq, commandBody_eq]
    refine .of_ne rfl ?_ ?_ <;> rcases hseq with hseq | hseq <;> simp [hseq, SeqState.afterByte]
  · rw [bodyEnd_startConversion hseq, bodyEnd_startConversion (by exact hseq), commandBody_eq, commandBody_eq]
    exact ⟨rfl, fun _ => rfl, fun hq => by cases hq⟩
  · rw [bodyEnd_conversionWait hseq, bodyEnd_conversionWait (by exact hseq)]
    exact pollBody_alike hseq (hpoll hseq)
  · rw [bodyEnd_readScratchpad hseq, bodyEnd_readScratchpad (by exact hseq)]
    exact readScratchpadBody_alike s u
  · rw [bodyEnd_validate hseq, bodyEnd_validate (by exact hseq)]
    exact validateBody_alike (hsp hseq)

/-! ## Runs -/

/-- A row leaves alone where the next step's work comes from, but for `SEQ`. -/
theorem RunsAlone.bodyEnd (h : RunsAlone s) : RunsAlone (bodyEnd s) := by
  rcases seq_cases s.seq with hseq | hseq | hseq | hseq | hseq | hseq | hseq
  · rw [bodyEnd_resting hseq]
    exact h
  · rw [bodyEnd_reset hseq, resetBody_eq]
    exact h
  · rw [bodyEnd_selectAll hseq, commandBody_eq]
    exact h
  · rw [bodyEnd_startConversion hseq, commandBody_eq]
    exact h
  · rw [bodyEnd_conversionWait hseq, pollBody_eq]
    exact h
  · obtain ⟨m, -, he⟩ := readScratchpadBody_eq s
    rw [bodyEnd_readScratchpad hseq, he]
    exact h
  · rw [bodyEnd_validate hseq, validateBody_eq]
    exact h

theorem RunsAlone.inside (h : RunsAlone s) (x : State) : RunsAlone (s.inside x) := h

/-- Two blocks that run by themselves and are alike stay so (R42). -/
theorem run_alike (n : Nat) (hs : RunsAlone s) (h : Alike s u) :
    ∃ t v, runSteps n s = .next t ∧ runSteps n u = .next v ∧ v = t.inside v := by
  induction n generalizing s u with
  | zero => exact ⟨s, u, rfl, rfl, h.inside⟩
  | succ n ih =>
    have hu : RunsAlone u := h.inside ▸ hs.inside u
    obtain ⟨t, v, ht, hv, hin⟩ := ih hs.bodyEnd h.bodyEnd
    refine ⟨t, v, ?_, ?_, hin⟩
    · rw [runSteps, step_runsAlone hs]
      exact ht
    · rw [runSteps, step_runsAlone hu]
      exact hv

/-- Settles O60: after the start the two states are alike, since `Reset1` reads no internal register. -/
theorem internalRegistersAreNeverSeen : Obligations.InternalRegistersAreNeverSeen := by
  intro s shr bitcnt sp bytecnt crc pres rxbit pollcnt n h
  generalize hu : ({ s with shr := shr, bitcnt := bitcnt, sp := sp, bytecnt := bytecnt, crc := crc, pres := pres
                            rxbit := rxbit, pollcnt := pollcnt } : State) = u
  have hin : u = s.inside u := by rw [← hu]; rfl
  have hstart : StartsTransaction u := by rw [← hu]; exact h
  obtain ⟨t, v, ht, hv, htv⟩ : ∃ t v, runSteps n s = .next t ∧ runSteps n u = .next v ∧ v = t.inside v := by
    cases n with
    | zero => exact ⟨s, u, rfl, rfl, hin⟩
    | succ n =>
      obtain ⟨hs, halone⟩ := step_start h
      have halike : Alike (started s) (started u) := .of_ne (by rw [hin]; rfl) (by simp [started]) (by simp [started])
      obtain ⟨t, v, ht, hv, htv⟩ := run_alike n halone halike
      refine ⟨t, v, ?_, ?_, htv⟩
      · rw [runSteps, hs]
        exact ht
      · rw [runSteps, (step_start hstart).1]
        exact hv
  refine ⟨t, v, ht, hv, ?_, ?_⟩
  · rw [htv]
    rfl
  · rw [htv]
    rfl

end Sys2Proof.Machine
end

section
/-! The two levels of R9 against the operation level: each primitive as its phases, and the phases run by micro-operations and by ticks
(R9, R143). -/

namespace Sys2Proof.Machine

variable {s t u : State} {i : Instr}

/-! ## Phases in a row -/

/-- A phase of a primitive run to its end, with its line mode and its event, or its sample (R143). -/
def afterPhase (s : State) : State :=
  if s.ph.timed then phaseEnded (delay s.phaseTime { s with dqOe := s.ph.drives }) else phaseEnded s

/-- One phase. -/
def PhaseStep (s t : State) : Prop := s.ph ≠ .idle ∧ afterPhase s = t

/-- Phases one after another. -/
def Phases : State → State → Prop := Relation.ReflTransGen PhaseStep

theorem Phases.head (hph : s.ph ≠ .idle) (h : Phases (afterPhase s) t) : Phases s t :=
  Relation.ReflTransGen.head ⟨hph, rfl⟩ h

theorem Phases.trans (h : Phases s t) (k : Phases t u) : Phases s u := Relation.ReflTransGen.trans h k

theorem Phases.of_eq (h : s = t) : Phases s t := h ▸ .refl

theorem sample_ph_of_not_timed (ht : s.ph.timed = false) (hph : s.ph ≠ .idle) : s.ph = .rstSample ∨ s.ph = .rdSample := by
  cases h : s.ph <;> simp [h, Phase.timed] at ht hph ⊢

/-- A phase is one or two micro-operations (R9 a). -/
theorem symbolSteps_phaseStep (h : PhaseStep s t) : ∃ n, symbolSteps n s = t := by
  obtain ⟨hph, rfl⟩ := h
  cases ht : s.ph.timed with
  | true =>
    rw [afterPhase, if_pos ht]
    exact symbolSteps_phase s ht
  | false =>
    refine ⟨1, ?_⟩
    rw [symbolSteps, symbolSteps, symbolStep_inside s hph, microStep, afterPhase, ht, if_neg (by simp), if_neg (by simp)]

theorem symbolSteps_phases (h : Phases s t) : ∃ n, symbolSteps n s = t := by
  induction h with
  | refl => exact ⟨0, rfl⟩
  | tail _ hstep ih =>
    obtain ⟨m, rfl⟩ := ih
    obtain ⟨n, rfl⟩ := symbolSteps_phaseStep hstep
    exact ⟨m + n, symbolSteps_add m n s⟩

/-- Ticks from the entry of one phase to the entry of another, in the time of the events between. -/
def TicksInTime (s t : State) : Prop :=
  t.tmr = 0 ∧ ∃ us, TicksTo (enterPhase s) (enterPhase t) us ∧ duration t.trace = duration s.trace + us

theorem ticksInTime_phaseStep (h : PhaseStep s t) (htmr : s.tmr = 0) : TicksInTime s t := by
  obtain ⟨hph, rfl⟩ := h
  cases ht : s.ph.timed with
  | true =>
    rw [afterPhase, if_pos ht]
    refine ⟨by simp [htmr], s.phaseTime, ticksTo_phase s ht htmr, ?_⟩
    have hrst : s.ph ≠ .rstSample := fun h => by simp [h, Phase.timed] at ht
    have hrd : s.ph ≠ .rdSample := fun h => by simp [h, Phase.timed] at ht
    rw [(phaseEnd_phaseEnded (delay s.phaseTime { s with dqOe := s.ph.drives })).trace_eq hrst hrd]
    cases hd : s.ph.drives <;> simp [delay, emit, duration]
  | false =>
    rw [afterPhase, if_neg (by simp [ht])]
    refine ⟨by simp [htmr], 0, ?_, ?_⟩
    · refine ⟨1, ?_, ?_⟩
      · rw [enterPhase_untimed s ht, ticks, ticks, tick_of_zero htmr]
      · rw [enterPhase_untimed s ht, elapsed, elapsed, htmr, if_pos rfl]
    · rw [phaseEnded_trace_sample (sample_ph_of_not_timed ht hph)]
      simp [duration]

theorem ticksInTime_phases (h : Phases s t) (htmr : s.tmr = 0) : TicksInTime s t := by
  induction h with
  | refl => exact ⟨htmr, 0, TicksTo.refl _, rfl⟩
  | tail _ hstep ih =>
    obtain ⟨htmr', us, hticks, htime⟩ := ih
    obtain ⟨htmr'', us', hticks', htime'⟩ := ticksInTime_phaseStep hstep htmr'
    exact ⟨htmr'', us + us', hticks.trans hticks', by rw [htime', htime, Nat.add_assoc]⟩

/-! ## What each phase does -/

/-- A timed phase is its line mode, its event, and what comes after (R143). -/
theorem afterPhase_timed (ht : s.ph.timed = true) : afterPhase s = phaseEnded { s with
    dqOe := s.ph.drives, trace := s.trace ++ [if s.ph.drives then .low s.phaseTime else .rel s.phaseTime] } := if_pos ht

theorem afterPhase_rstLow (hph : s.ph = .rstLow) :
    afterPhase s = goTo .rstWait { s with dqOe := true, trace := s.trace ++ [.low 500] } := by
  simp [afterPhase_timed, hph, Phase.timed, Phase.drives, State.phaseTime, phaseEnded, Config.tRSTL]

theorem afterPhase_rstWait (hph : s.ph = .rstWait) :
    afterPhase s = goTo .rstSample { s with dqOe := false, trace := s.trace ++ [.rel 65] } := by
  simp [afterPhase_timed, hph, Phase.timed, Phase.drives, State.phaseTime, phaseEnded, Config.tPDS]

theorem afterPhase_rstSample (hph : s.ph = .rstSample) :
    afterPhase s = if (sample s).1 then presenceFailed (sample s).2 else goTo .rstRec (sample s).2 := by
  simp [afterPhase, hph, Phase.timed, phaseEnded]

theorem afterPhase_rstRec (hph : s.ph = .rstRec) :
    afterPhase s = presenceFound { s with dqOe := false, trace := s.trace ++ [.rel 435] } := by
  simp [afterPhase_timed, hph, Phase.timed, Phase.drives, State.phaseTime, phaseEnded, Config.tRSTREC]

theorem afterPhase_wrLow (hph : s.ph = .wrLow) :
    afterPhase s = goTo .wrHigh { s with dqOe := true, trace := s.trace ++ [.low (writeTimes s.wrBit).1] } := by
  simp [afterPhase_timed, hph, Phase.timed, Phase.drives, State.phaseTime, phaseEnded]

theorem afterPhase_wrHigh (hph : s.ph = .wrHigh) :
    afterPhase s = writeSlotEnded { s with dqOe := false, trace := s.trace ++ [.rel (writeTimes s.wrBit).2] } := by
  simp [afterPhase_timed, hph, Phase.timed, Phase.drives, State.phaseTime, phaseEnded]

theorem afterPhase_rdLow (hph : s.ph = .rdLow) :
    afterPhase s = goTo .rdWait { s with dqOe := true, trace := s.trace ++ [.low 3] } := by
  simp [afterPhase_timed, hph, Phase.timed, Phase.drives, State.phaseTime, phaseEnded, Config.tRDL]

theorem afterPhase_rdWait (hph : s.ph = .rdWait) :
    afterPhase s = goTo .rdSample { s with dqOe := false, trace := s.trace ++ [.rel 10] } := by
  simp [afterPhase_timed, hph, Phase.timed, Phase.drives, State.phaseTime, phaseEnded, Config.tRDS]

theorem afterPhase_rdSample (hph : s.ph = .rdSample) :
    afterPhase s = goTo .rdRem { (sample s).2 with rxbit := (sample s).1 } := by
  simp [afterPhase, hph, Phase.timed, phaseEnded]

theorem afterPhase_rdRem (hph : s.ph = .rdRem) :
    afterPhase s = readSlotEnded { s with dqOe := false, trace := s.trace ++ [.rel 52] } := by
  simp [afterPhase_timed, hph, Phase.timed, Phase.drives, State.phaseTime, phaseEnded, Config.tRDREM, Config.tSLOT,
    Config.tRDL, Config.tRDS]

theorem afterPhase_pollGap (hph : s.ph = .pollGap) :
    afterPhase s = goTo .idle { s with dqOe := false, trace := s.trace ++ [.rel s.par.tPoll] } := by
  simp [afterPhase_timed, hph, Phase.timed, Phase.drives, State.phaseTime, phaseEnded]

/-! ## The three line symbols -/

/-- A reset frame up to its sample (R91). -/
theorem phases_presenceSample (hph : s.ph = .rstLow) : Phases s (goTo .rstSample (atPresenceSample s)) := by
  refine .head (by simp [hph]) ?_
  rw [afterPhase_rstLow hph]
  refine .head (by simp) (.of_eq ?_)
  rw [afterPhase_rstWait rfl]
  simp [goTo, atPresenceSample]

/-- Where a reset frame leads: back to its caller, or on with the sequencer (R135, R203, R207). -/
def resetEnd (s : State) : State :=
  if s.use = .reset then callDone (.presence (presenceOf (resetDetect s).1)) (resetDetect s).2
  else goTo .idle (resetBody s.seq.afterPresence s)

/-- The presence sample of a reset frame (R91). -/
theorem sample_atPresenceSample (s : State) :
    (sample (goTo .rstSample (atPresenceSample s))).1 = (atPresenceSample s).answer ∧
    (sample (goTo .rstSample (atPresenceSample s))).2 = goTo .rstSample { s with
      dqOe := false
      trace := s.trace ++ [.low 500, .rel 65, .smp (atPresenceSample s).answer]
      dqIn := s.dqIn.tail } := by
  rw [sample_released _ rfl]
  refine ⟨rfl, ?_⟩
  show goTo .rstSample { s with
    dqOe := false, trace := (s.trace ++ [.low 500, .rel 65]) ++ [.smp (atPresenceSample s).answer], dqIn := s.dqIn.tail } = _
  rw [List.append_assoc]
  rfl

theorem phases_reset (hph : s.ph = .rstLow) : Phases s (resetEnd s) := by
  refine (phases_presenceSample hph).trans (.head (by simp) ?_)
  obtain ⟨hbit, hstate⟩ := sample_atPresenceSample s
  rw [afterPhase_rstSample rfl, hbit, hstate, resetEnd, resetBody_eq, resetDetect_eq]
  cases (atPresenceSample s).answer with
  | true =>
    refine .of_eq ?_
    show (if s.use = .reset then _ else _) = _
    by_cases huse : s.use = .reset
    · rw [if_pos huse, if_pos huse]
      rfl
    · rw [if_neg huse, if_neg huse]
      rfl
  | false =>
    refine .head (by simp) (.of_eq ?_)
    rw [if_neg (by simp), afterPhase_rstRec rfl]
    show (if s.use = .reset then _ else _) = _
    rw [goTo_trace, goTo_trace, List.append_assoc]
    by_cases huse : s.use = .reset
    · rw [if_pos huse, if_pos huse]
      rfl
    · rw [if_neg huse, if_neg huse]
      rfl

/-- A write slot (R136). -/
theorem phases_writeSlot (hph : s.ph = .wrLow) : Phases s (writeSlotEnded (goTo .wrHigh (writeBit s.wrBit s))) := by
  refine .head (by simp [hph]) ?_
  rw [afterPhase_wrLow hph]
  refine .head (by simp) (.of_eq ?_)
  rw [afterPhase_wrHigh rfl]
  congr 1

/-- A read slot (R137). -/
theorem phases_readSlot (hph : s.ph = .rdLow) : Phases s (readSlotEnded (goTo .rdRem (readBit s).2)) := by
  refine .head (by simp [hph]) ?_
  rw [afterPhase_rdLow hph]
  refine .head (by simp) ?_
  rw [afterPhase_rdWait rfl]
  refine .head (by simp) ?_
  rw [afterPhase_rdSample rfl]
  refine .head (by simp) (.of_eq ?_)
  rw [afterPhase_rdRem rfl]
  congr 1

/-! ## A byte -/

theorem goTo_self {p : Phase} (h : s.ph = p) : goTo p s = s := by rw [goTo, ← h]

/-- Where a sent byte leads: back to its caller, or on with the sequencer (R118, R160). -/
def sentEnd (s : State) : State := if s.use = .byte then callDone .none s else byteSent s

/-- A slot of a sent byte leads to the next one, or ends the byte (R160). -/
theorem phases_txSlot (hph : s.ph = .wrLow) (huse : ∀ v, s.use ≠ .write v) :
    Phases s (if s.bitcnt + 1 = 8 then sentEnd (goTo .wrHigh (txSlot s)) else txSlot s) := by
  refine (phases_writeSlot hph).trans (.of_eq ?_)
  have hbit : s.wrBit = s.shrBit := by
    cases h : s.use with
    | write v => exact absurd h (huse v)
    | sequencer | reset | read | byte => simp only [State.wrBit, h]
  have hslot : writeSlotEnded (goTo .wrHigh (writeBit s.shrBit s)) = sentBitEnded (goTo .wrHigh (writeBit s.shrBit s)) := by
    have hkept : (goTo .wrHigh (writeBit s.shrBit s)).use = s.use := rfl
    cases h : s.use with
    | write v => exact absurd h (huse v)
    | sequencer | reset | read | byte => simp only [writeSlotEnded, hkept, h]
  rw [hbit, hslot, sentBitEnded_eq, ← goTo_self (s := txSlot s) hph]
  rfl

theorem bitcnt_succ_eq_iff {c : BitVec 4} {n : Nat} (h : c.toNat + (n + 1) = 8) : c + 1 = 8 ↔ n = 0 := by
  have hsucc : (c + 1).toNat = c.toNat + 1 := by bv_omega
  rw [← BitVec.toNat_inj, hsucc]
  show _ = 8 ↔ _
  omega

theorem phases_txSlots {n : Nat} (hph : s.ph = .wrLow) (huse : ∀ v, s.use ≠ .write v) (hcnt : s.bitcnt.toNat + (n + 1) = 8) :
    Phases s (sentEnd (goTo .wrHigh (txSlots (n + 1) s))) := by
  induction n generalizing s with
  | zero =>
    have hslot := phases_txSlot hph huse
    rwa [if_pos ((bitcnt_succ_eq_iff hcnt).mpr rfl)] at hslot
  | succ n ih =>
    have hslot := phases_txSlot hph huse
    rw [if_neg ((bitcnt_succ_eq_iff hcnt).not.mpr (Nat.succ_ne_zero n))] at hslot
    refine hslot.trans (ih (s := txSlot s) hph huse ?_)
    show (s.bitcnt + 1).toNat + (n + 1) = 8
    bv_omega

/-- A byte sent (R160). -/
theorem phases_txByte (b : Byte) (huse : ∀ v, s.use ≠ .write v) : Phases (startTx b s) (sentEnd (goTo .wrHigh (txByte b s))) :=
  phases_txSlots (s := startTx b s) (n := 7) rfl huse rfl

theorem rxSlots_goTo (p : Phase) (n : Nat) (s : State) : rxSlots n (goTo p s) = goTo p (rxSlots n s) := by
  induction n generalizing s with
  | zero => rfl
  | succ n ih => exact ih (rxSlot s)

/-- Where a received byte leads: back to its caller, or into the scratchpad (R118, R161, R209). -/
def receivedEnd (s : State) : State := if s.use = .byte then callDone (.byte s.shr) s else byteReceived s

/-- A slot of a received byte leads to the next one, or ends the byte (R161). -/
theorem phases_rxSlot (hph : s.ph = .rdLow) (huse : s.use = .byte ∨ (s.use = .sequencer ∧ s.seq ≠ .conversionWait)) :
    Phases s (if s.bitcnt + 1 = 8 then receivedEnd (goTo .rdRem (rxSlot s)) else rxSlot s) := by
  refine (phases_readSlot hph).trans (.of_eq ?_)
  have hslot : readSlotEnded (goTo .rdRem (readBit s).2) = receivedBitEnded (goTo .rdRem (readBit s).2) := by
    have hkept : (goTo .rdRem (readBit s).2).use = s.use ∧ (goTo .rdRem (readBit s).2).seq = s.seq := ⟨rfl, rfl⟩
    rcases huse with h | ⟨h, hseq⟩
    · simp only [readSlotEnded, hkept, h]
    · simp only [readSlotEnded, hkept, h, if_neg hseq]
  rw [hslot, receivedBitEnded_eq, ← goTo_self (s := rxSlot s) hph]
  rfl

theorem phases_rxSlots {n : Nat} (hph : s.ph = .rdLow) (huse : s.use = .byte ∨ (s.use = .sequencer ∧ s.seq ≠ .conversionWait))
    (hcnt : s.bitcnt.toNat + (n + 1) = 8) : Phases s (receivedEnd (goTo .rdRem (rxSlots (n + 1) s))) := by
  induction n generalizing s with
  | zero =>
    have hslot := phases_rxSlot hph huse
    rwa [if_pos ((bitcnt_succ_eq_iff hcnt).mpr rfl)] at hslot
  | succ n ih =>
    have hslot := phases_rxSlot hph huse
    rw [if_neg ((bitcnt_succ_eq_iff hcnt).not.mpr (Nat.succ_ne_zero n))] at hslot
    refine hslot.trans (ih (s := rxSlot s) hph huse ?_)
    show (s.bitcnt + 1).toNat + (n + 1) = 8
    bv_omega

/-- A byte received (R161). -/
theorem phases_rxByte (huse : s.use = .byte ∨ (s.use = .sequencer ∧ s.seq ≠ .conversionWait)) :
    Phases (startRx s) (receivedEnd (goTo .rdRem (rxByte s))) := by
  have hslots := phases_rxSlots (s := startRx s) (n := 7) rfl huse rfl
  rwa [show startRx s = goTo .rdLow { s with shr := 0, bitcnt := 0 } from rfl, rxSlots_goTo] at hslots

/-- A byte of the scratchpad leads to the next one, or to `Validate` (R209). -/
theorem phases_storedByte (huse : s.use = .sequencer) (hseq : s.seq ≠ .conversionWait) :
    Phases (startRx s) (if s.bytecnt + 1 = 9 then leaveTo .validate ((rxByte s).storeSp (rxByte s).shr)
      else startRx ((rxByte s).storeSp (rxByte s).shr)) := by
  refine (phases_rxByte (.inr ⟨huse, hseq⟩)).trans (.of_eq ?_)
  obtain ⟨b, -, he⟩ := rxByte_eq s
  have hown : (goTo .rdRem (rxByte s)).use ≠ .byte := by simp [he, huse]
  have hbytes : (goTo .rdRem (rxByte s)).bytecnt = s.bytecnt := by rw [goTo_bytecnt, he]
  rw [receivedEnd, if_neg hown, byteReceived_eq, hbytes]
  rfl

theorem bytecnt_succ_eq_iff {c : BitVec 4} {n : Nat} (h : c.toNat + (n + 1) = 9) : c + 1 = 9 ↔ n = 0 := by
  have hsucc : (c + 1).toNat = c.toNat + 1 := by bv_omega
  rw [← BitVec.toNat_inj, hsucc]
  show _ = 9 ↔ _
  omega

/-- The bytes of the scratchpad, the last of them at `BYTECNT` = 9 (R209). -/
theorem phases_receiveBytes {n : Nat} (huse : s.use = .sequencer) (hseq : s.seq ≠ .conversionWait)
    (hcnt : s.bytecnt.toNat + (n + 1) = 9) : Phases (startRx s) (leaveTo .validate (receiveBytes (n + 1) s)) := by
  induction n generalizing s with
  | zero =>
    have hbyte := phases_storedByte huse hseq
    rwa [if_pos ((bytecnt_succ_eq_iff hcnt).mpr rfl)] at hbyte
  | succ n ih =>
    have hbyte := phases_storedByte huse hseq
    rw [if_neg ((bytecnt_succ_eq_iff hcnt).not.mpr (Nat.succ_ne_zero n))] at hbyte
    obtain ⟨b, -, he⟩ := rxByte_eq s
    refine hbyte.trans (ih (s := (rxByte s).storeSp (rxByte s).shr) ?_ ?_ ?_)
    · rw [he]
      exact huse
    · rw [he]
      exact hseq
    · rw [he]
      show (s.bytecnt + 1).toNat + (n + 1) = 9
      bv_omega

/-! ## A row of the sequencer -/

/-- A poll (R206). -/
theorem phases_poll (hph : s.ph = .rdLow) (huse : s.use = .sequencer) (hseq : s.seq = .conversionWait) :
    Phases s (goTo .idle (pollBody s)) := by
  refine (phases_readSlot hph).trans ?_
  have hslot : readSlotEnded (goTo .rdRem (readBit s).2) = pollEnded (goTo .rdRem (readBit s).2) := by
    have hkept : (goTo .rdRem (readBit s).2).use = s.use ∧ (goTo .rdRem (readBit s).2).seq = s.seq := ⟨rfl, rfl⟩
    simp only [readSlotEnded, hkept, huse, if_pos hseq]
  rw [hslot, readBit_eq, pollEnded_eq]
  cases ha : (atReadSample s).answer with
  | true =>
    rw [pollBody_of_one ha]
    exact .of_eq rfl
  | false =>
    by_cases hlimit : s.par.pollLimit = some (s.pollcnt + 1)
    · rw [pollBody_of_last ha hlimit]
      exact .of_eq ((if_neg (by exact Bool.false_ne_true)).trans (if_pos (by exact hlimit)))
    · rw [pollBody_of_zero ha hlimit, if_neg (by exact Bool.false_ne_true), if_neg (by exact hlimit)]
      refine .head (by simp) (.of_eq ?_)
      rw [afterPhase_pollGap rfl]
      rfl

/-- The phases of a sequencer state's body, from the first one's entry, are the body (R200). -/
theorem phases_body (hph : s.ph = .idle) (huse : s.use = .sequencer) (hbegun : (beginBody s).ph ≠ .idle) :
    Phases (beginBody s) (goTo .idle (bodyEnd s)) := by
  have hown : ∀ v, s.use ≠ .write v := by simp [huse]
  have hsent : ∀ b, s.seq ≠ .readScratchpad → Phases (startTx b s)
      (goTo .idle { txByte b s with
        seq := s.seq.afterByte, pollcnt := if s.seq = .startConversion then 0 else s.pollcnt }) := by
    intro b hne
    refine (phases_txByte b hown).trans (.of_eq ?_)
    rw [txByte_eq, sentEnd, if_neg (by simp [huse]), byteSent_of_ne (by exact hne)]
    rfl
  rcases seq_cases s.seq with hseq | hseq | hseq | hseq | hseq | hseq | hseq
  · have hb : beginBody s = s := by
      unfold beginBody
      cases h : s.seq <;> simp [h, SeqState.resting] at hseq <;> rfl
    rw [hb] at hbegun
    exact absurd hph hbegun
  · have hb : beginBody s = goTo .rstLow s := by
      rcases hseq with h | h <;> rw [beginBody, h]
    rw [hb, bodyEnd_reset hseq]
    refine (phases_reset (s := goTo .rstLow s) rfl).trans (.of_eq ?_)
    rw [resetEnd, if_neg (by simp [huse]), resetBody_eq, resetBody_eq]
    rfl
  · have hb : beginBody s = startTx Config.cmdSelectAll s := by
      rcases hseq with h | h <;> rw [beginBody, h]
    have hne : s.seq ≠ .startConversion := by rcases hseq with h | h <;> simp [h]
    rw [hb, bodyEnd_selectAll hseq]
    have h := hsent Config.cmdSelectAll (by rcases hseq with h | h <;> simp [h])
    rw [if_neg hne, txByte_eq] at h
    rwa [commandBody_eq]
  · have hb : beginBody s = startTx Config.cmdConvert s := by rw [beginBody, hseq]
    rw [hb, bodyEnd_startConversion hseq]
    have h := hsent Config.cmdConvert (by simp [hseq])
    rw [if_pos hseq, hseq] at h
    exact h
  · have hb : beginBody s = goTo .rdLow s := by rw [beginBody, hseq]
    rw [hb, bodyEnd_conversionWait hseq]
    refine (phases_poll (s := goTo .rdLow s) rfl huse hseq).trans (.of_eq ?_)
    rw [pollBody_eq, pollBody_eq]
    rfl
  · have hb : beginBody s = startTx Config.cmdReadSp s := by rw [beginBody, hseq]
    rw [hb, bodyEnd_readScratchpad hseq]
    refine (phases_txByte _ hown).trans ?_
    rw [sentEnd, if_neg (by simp [txByte_eq, huse]), byteSent_of_readScratchpad (by simp [txByte_eq, hseq])]
    have hbytes := phases_receiveBytes (s := { txByte Config.cmdReadSp s with bytecnt := 0 }) (n := 8)
      (by simp [txByte_eq, huse]) (by simp [txByte_eq, hseq]) rfl
    have hend : goTo .idle (readScratchpadBody s) =
        leaveTo .validate (receiveBytes 9 { txByte Config.cmdReadSp s with bytecnt := 0 }) := by
      unfold readScratchpadBody
      generalize receiveBytes 9 _ = v
      rfl
    rw [hend]
    exact hbytes
  · have hb : beginBody s = validateBody s := by rw [beginBody, hseq]
    exact absurd (by rw [hb, validateBody_eq]; exact hph) hbegun

/-! ## An operation called by itself -/

/-- What a called operation leaves is what it returns in an idle block (R118). -/
theorem callDone_of_idle (hph : s.ph = .idle) (huse : s.use = .sequencer) (r : Result) (p : Phase) (x : Use) :
    callDone r { s with ph := p, use := x } = { s with res := r } := by
  show ({ s with ph := .idle, use := .sequencer, res := r } : State) = _
  rw [← hph, ← huse]

theorem phases_calledWriteSlot {v : Bit} (hph : s.ph = .idle) (huse : s.use = .sequencer) :
    Phases { s with ph := .wrLow, use := .write v } { writeBit v s with res := .none } := by
  have hkept : (writeBit v s).ph = .idle ∧ (writeBit v s).use = .sequencer := by simp [writeBit_eq, hph, huse]
  rw [← callDone_of_idle hkept.1 hkept.2 .none .wrHigh (.write v)]
  exact phases_writeSlot (s := { s with ph := .wrLow, use := .write v }) rfl

theorem phases_calledReadSlot (hph : s.ph = .idle) (huse : s.use = .sequencer) :
    Phases { s with ph := .rdLow, use := .read } { (readBit s).2 with res := .bit (readBit s).1 } := by
  have hkept : (readBit s).2.ph = .idle ∧ (readBit s).2.use = .sequencer := by simp [readBit_eq, hph, huse]
  rw [← callDone_of_idle hkept.1 hkept.2 _ .rdRem .read]
  exact phases_readSlot (s := { s with ph := .rdLow, use := .read }) rfl

theorem phases_calledReset (hph : s.ph = .idle) (huse : s.use = .sequencer) :
    Phases { s with ph := .rstLow, use := .reset }
      { (resetDetect s).2 with res := .presence (presenceOf (resetDetect s).1) } := by
  have hkept : (resetDetect s).2.ph = .idle ∧ (resetDetect s).2.use = .sequencer := by simp [resetDetect_eq, hph, huse]
  rw [← callDone_of_idle hkept.1 hkept.2 _ .rstLow .reset]
  refine (phases_reset (s := { s with ph := .rstLow, use := .reset }) rfl).trans (.of_eq ?_)
  rw [resetEnd, if_pos rfl, resetDetect_eq, resetDetect_eq]
  rfl

theorem phases_calledTxByte (b : Byte) (hph : s.ph = .idle) (huse : s.use = .sequencer) :
    Phases { startTx b s with use := .byte } { txByte b s with res := .none } := by
  have hkept : (txByte b s).ph = .idle ∧ (txByte b s).use = .sequencer := by simp [txByte_eq, hph, huse]
  rw [← callDone_of_idle hkept.1 hkept.2 .none .wrHigh .byte]
  refine (phases_txByte (s := { s with use := .byte }) b (by simp)).trans (.of_eq ?_)
  rw [sentEnd, txByte_eq, txByte_eq]
  exact if_pos rfl

theorem rxByte_use (x : Use) (s : State) : rxByte { s with use := x } = { rxByte s with use := x } := by
  have hslots : ∀ (n : Nat) (s : State), rxSlots n { s with use := x } = { rxSlots n s with use := x } := by
    intro n
    induction n with
    | zero => exact fun _ => rfl
    | succ n ih => exact fun s => ih (rxSlot s)
  exact hslots 8 { s with shr := 0, bitcnt := 0 }

theorem phases_calledRxByte (hph : s.ph = .idle) (huse : s.use = .sequencer) :
    Phases { startRx s with use := .byte } { rxByte s with res := .byte (rxByte s).shr } := by
  obtain ⟨b, -, he⟩ := rxByte_eq s
  have hkept : (rxByte s).ph = .idle ∧ (rxByte s).use = .sequencer := by simp [he, hph, huse]
  rw [← callDone_of_idle hkept.1 hkept.2 _ .rdRem .byte]
  refine (phases_rxByte (s := { s with use := .byte }) (.inl rfl)).trans (.of_eq ?_)
  rw [receivedEnd, rxByte_use]
  exact if_pos rfl

/-- The phases of an operation called by itself, from its set-up, are the whole operation (R135 to R137, R160, R161). -/
theorem phases_call (hph : s.ph = .idle) (huse : s.use = .sequencer) (hb : begun i s = some u) (h : exec i s = .next t) :
    Phases u t := by
  cases i with
  | resetDetect =>
    cases hb
    cases h
    exact phases_calledReset hph huse
  | w1 | w0 =>
    cases hb
    cases h
    exact phases_calledWriteSlot hph huse
  | readBit =>
    cases hb
    cases h
    exact phases_calledReadSlot hph huse
  | txByte | selectAll | convert | readSp =>
    cases hb
    cases h
    exact phases_calledTxByte _ hph huse
  | rxByte =>
    cases hb
    cases h
    exact phases_calledRxByte hph huse
  | _ => cases hb

/-- An operation without phases takes the time its event says (R132). -/
theorem duration_exec_of_not_begun (hseq : i.format ≠ .seq4) (hhost : i.format ≠ .host1) (hb : begun i s = none)
    (h : exec i s = .next t) : duration t.trace = duration s.trace + delayTime i := by
  cases i with
  | driveLow | release | crcStep | computeCrc | decode | latest =>
    cases h
    rfl
  | delay n =>
    cases h
    cases hoe : s.dqOe <;> simp [delay, emit, hoe, duration, delayTime]
  | sample =>
    cases hoe : s.dqOe with
    | true =>
      rw [exec_sample_driven hoe] at h
      cases h
    | false =>
      rw [exec_sample_released hoe] at h
      cases h
      simp [duration, delayTime]
  | resetDetect | w1 | w0 | readBit | txByte | rxByte | selectAll | convert | readSp => cases hb
  | acquire | reset => exact absurd rfl hhost
  | _ => exact absurd rfl hseq

/-! ## Both levels against the operation level -/

theorem bodyEnd_ph (s : State) : (bodyEnd s).ph = s.ph := by
  rcases seq_cases s.seq with hseq | hseq | hseq | hseq | hseq | hseq | hseq
  · rw [bodyEnd_resting hseq]
  · rw [bodyEnd_reset hseq, resetBody_eq]
  · rw [bodyEnd_selectAll hseq, commandBody_eq]
  · rw [bodyEnd_startConversion hseq, commandBody_eq]
  · rw [bodyEnd_conversionWait hseq, pollBody_eq]
  · obtain ⟨m, -, he⟩ := readScratchpadBody_eq s
    rw [bodyEnd_readScratchpad hseq, he]
  · rw [bodyEnd_validate hseq, validateBody_eq]

/-- A body without phases, a resting state's or `Validate`, is its own beginning. -/
theorem beginBody_eq_bodyEnd (hbegun : (beginBody s).ph = .idle) : beginBody s = bodyEnd s := by
  unfold bodyEnd
  cases hseq : s.seq with
  | idle | committed | discarded | aborted | timedOut | validate => rw [beginBody, hseq, rowEnd]
  | reset1 | reset2 | selectAll1 | selectAll2 | startConversion | conversionWait | readScratchpad =>
    rw [beginBody, hseq] at hbegun
    cases hbegun

/-- The phases of a row of `SEQ`, none of them in a resting state and in `Validate`. -/
theorem phases_row (hph : s.ph = .idle) (huse : s.use = .sequencer) : Phases (beginBody s) (bodyEnd s) := by
  by_cases hbegun : (beginBody s).ph = .idle
  · exact .of_eq (beginBody_eq_bodyEnd hbegun)
  · rw [← goTo_self ((bodyEnd_ph s).trans hph)]
    exact phases_body hph huse hbegun

/-- The symbol level does a row in its micro-operations (R9 a). -/
theorem symbolSteps_row (hph : s.ph = .idle) (huse : s.use = .sequencer) : ∃ n, symbolSteps n s = bodyEnd s := by
  by_cases hbegun : (beginBody s).ph = .idle
  · refine ⟨1, ?_⟩
    rw [symbolSteps, symbolSteps, symbolStep_idle hph, if_pos hbegun, beginBody_eq_bodyEnd hbegun]
  · obtain ⟨n, hn⟩ := symbolSteps_phases (phases_row hph huse)
    cases n with
    | zero =>
      rw [symbolSteps] at hn
      exact absurd (by rw [hn, bodyEnd_ph, hph]) hbegun
    | succ n =>
      have hfirst : symbolStep s = symbolStep (beginBody s) := by
        rw [symbolStep_idle hph, if_neg hbegun, symbolStep_inside _ hbegun]
      exact ⟨n + 1, by rw [symbolSteps, hfirst, ← hn, symbolSteps]⟩

/-- The tick level does a row in the microseconds of its events (R9 b). -/
theorem ticks_row (hph : s.ph = .idle) (htmr : s.tmr = 0) (huse : s.use = .sequencer) :
    ∃ n, ticks n s = bodyEnd s ∧ duration (bodyEnd s).trace = duration s.trace + elapsed n s := by
  have hstart : TicksTo s (enterPhase (beginBody s)) 0 := by
    refine ⟨1, ?_, ?_⟩
    · rw [ticks, ticks, tick_of_zero htmr, phaseEnded_idle hph]
    · rw [elapsed, elapsed, if_pos htmr]
  obtain ⟨-, us, hticks, htime⟩ := ticksInTime_phases (phases_row hph huse) (by rw [beginBody_tmr, htmr])
  rw [enterPhase_untimed (s := bodyEnd s) (by rw [bodyEnd_ph, hph]; rfl)] at hticks
  obtain ⟨n, hn, hus⟩ := hstart.trans hticks
  rw [(beginBody_line s).1] at htime
  exact ⟨n, hn, by rw [htime, hus, Nat.zero_add]⟩

/-- A called operation at the symbol level: its first micro-operation and further ones, or all of it at once. -/
theorem symbolSteps_call (hph : s.ph = .idle) (huse : s.use = .sequencer) (hseq : i.format ≠ .seq4) (hhost : i.format ≠ .host1)
    (hlevel : s.par.level = .symbol) (h : exec i s = .next t) (hu : runCall i s = .next u) : ∃ n, symbolSteps n u = t := by
  rw [runCall, hlevel] at hu
  cases hb : begun i s with
  | none =>
    rw [hb] at hu
    exact ⟨0, by cases hu.symm.trans h; rfl⟩
  | some b =>
    rw [hb] at hu
    cases hu
    have hinside := begun_ph_ne_idle hb
    obtain ⟨n, hn⟩ := symbolSteps_phases (phases_call hph huse hb h)
    cases n with
    | zero =>
      rw [symbolSteps] at hn
      exact absurd (by rw [hn, (exec_called hseq hhost h).ph_eq, hph]) hinside
    | succ n => exact ⟨n, by rw [← hn, symbolSteps, symbolStep_inside b hinside]⟩

/-- A called operation at the tick level: its first phase entered, or `TMR` loaded, and the microseconds of its events. -/
theorem ticks_call (hph : s.ph = .idle) (htmr : s.tmr = 0) (huse : s.use = .sequencer) (hseq : i.format ≠ .seq4)
    (hhost : i.format ≠ .host1) (hlevel : s.par.level = .tick) (h : exec i s = .next t) (hu : runCall i s = .next u) :
    ∃ n, ticks n u = t ∧ duration t.trace = duration s.trace + elapsed n u := by
  have heffect := exec_called hseq hhost h
  rw [runCall, hlevel] at hu
  cases hb : begun i s with
  | none =>
    rw [hb, h] at hu
    cases hu
    obtain ⟨hticks, helapsed⟩ := ticks_timed (delayTime i) { t with tmr := delayTime i } rfl
    refine ⟨delayTime i, ?_, by rw [helapsed, duration_exec_of_not_begun hseq hhost hb h]⟩
    have hdone : t.tmr = 0 := heffect.tmr_eq.trans htmr
    rw [hticks, ← hdone]
  | some b =>
    rw [hb] at hu
    cases hu
    obtain ⟨-, us, ⟨n, hn, hus⟩, htime⟩ := ticksInTime_phases (phases_call hph huse hb h) (by rw [begun_tmr hb, htmr])
    rw [enterPhase_untimed (s := t) (by rw [heffect.ph_eq, hph]; rfl)] at hn
    have hb_trace : b.trace = s.trace := by rw [(begun_eq hb).1]
    exact ⟨n, hn, by rw [htime, hus, hb_trace]⟩

/-- Settles O59: a row and a call are their phases one after another, and both levels run phases. -/
theorem tickLevelRefinesSymbolLevel : Obligations.TickLevelRefinesSymbolLevel := by
  refine fun s t i hph htmr huse h => ⟨fun hd => ?_, fun hseq hhost u hu => ⟨fun hlevel => ?_, fun hlevel => ?_⟩⟩
  · obtain rfl := (decode_seq4_eq_ok_iff s.seq i).mp hd
    cases (exec_row s.seq s).symm.trans h
    exact ⟨symbolSteps_row hph huse, ticks_row hph htmr huse⟩
  · exact symbolSteps_call hph huse hseq hhost hlevel h hu
  · exact ticks_call hph htmr huse hseq hhost hlevel h hu

end Sys2Proof.Machine
end
